-- ==== Sys2Proof/Word.lean ====
section
/-! DEFINITION. The word types of the block and their plainest arithmetic (00_scope R11, 20_memory R60, 30_encoding R90). -/

namespace Sys2Proof

/-- One cell of the host port: 64 bits, bit 0 least significant (R60, R11). -/
abbrev Cell := BitVec 64

/-- A cell address of the host port: 16 bits (R60). -/
abbrev Addr := BitVec 16

/-- A command word: the low half of the data of a write to `CMD` (R90). -/
abbrev CmdWord := BitVec 32

/-- The carrier of `NUM.f64`: the bit pattern of an IEEE 754 binary64 number (R8). -/
abbrev Bits64 := BitVec 64

/-- The carrier of the intensity of one row of the pixel column: 8 bits, unsigned (R30). -/
abbrev Intensity := BitVec 8

/-- A color: red in bits [23:16], green in [15:8], blue in [7:0] (R201). -/
abbrev Color := BitVec 24

/-- One entry of the sample buffer: the tag `nn` ("not a valid number") and the signed 32-bit sample `v` (R27). -/
structure Sample where
  nn : Bool
  v  : BitVec 32
  deriving DecidableEq, Repr

/-- The storage arrays of the block whose cells reset leaves without a value (R26 to R30, R311). -/
inductive Buf where
  | smp | xr | xi | mag | pix | twc | tws
  deriving DecidableEq, Repr

/-- A complex number over a carrier: the real and the imaginary part (R140, R145). -/
structure Cx (T : Type) where
  re : T
  im : T
  deriving DecidableEq, Repr

end Sys2Proof
end

