-- ==== Sys2Proof/Machine/F64.lean ====
section
/-! DEFINITION. IEEE 754 binary64 (00_scope R8): the operations of `NUM.f64` but for the three functions the spec leaves open.
Every operation is computed exactly on integers and rounded once, to nearest, ties to even. A finite number is an integer
number of grid units of 2^-1074 (the smallest subnormal), so no exponent is ever negative. Assumption log 4. -/

namespace Sys2Proof

/-! ### The layout: sign bit 63, exponent [62:52] with bias 1023, fraction [51:0] (R8) -/

/-- The sign bit (R8). -/
def F64.neg (x : Bits64) : Bool := x.getLsbD 63

/-- Exponent and fraction as one number: it orders the magnitudes (R8). -/
def F64.mag (x : Bits64) : Nat := x.toNat % 2 ^ 63

/-- The magnitude of an infinity: exponent all ones, fraction zero (R8). -/
def F64.infMag : Nat := 0x7FF0000000000000

def F64.isNaN (x : Bits64) : Bool := decide (F64.infMag < F64.mag x)
def F64.isInf (x : Bits64) : Bool := decide (F64.mag x = F64.infMag)
def F64.isFinite (x : Bits64) : Bool := decide (F64.mag x < F64.infMag)
def F64.isZero (x : Bits64) : Bool := decide (F64.mag x = 0)

/-- The pattern with this sign and this magnitude. -/
def F64.ofMag (neg : Bool) (m : Nat) : Bits64 := BitVec.ofNat 64 (if neg then 2 ^ 63 + m else m)

/-- The pattern of +0. -/
def F64.zero : Bits64 := 0x0000000000000000#64
/-- The pattern of 1. -/
def F64.one : Bits64 := 0x3FF0000000000000#64
/-- The pattern of +infinity. -/
def F64.inf : Bits64 := 0x7FF0000000000000#64
/-- The NaN every operation answers inside a command. It stands for "a NaN": the payload and sign a cell gets are a free value,
put in when the cell is written (`settleNan` of Machine/Ops.lean; 93_implementation_defined U15, assumption log 3). -/
def F64.qNaN : Bits64 := 0x7FF8000000000000#64

/-! ### Exact values -/

/-- How many grid units make 1: 2^1074. -/
def F64.unit : Nat := 2 ^ 1074

/-- The magnitude of a finite number in grid units of 2^-1074: the fraction for a subnormal, otherwise
(2^52 + fraction) · 2^(exponent - 1) (R8). -/
def F64.grid (x : Bits64) : Nat :=
  let e := F64.mag x / 2 ^ 52
  let f := F64.mag x % 2 ^ 52
  if e = 0 then f else (2 ^ 52 + f) * 2 ^ (e - 1)

/-- The value of a finite number in grid units, with its sign. -/
def F64.gridInt (x : Bits64) : Int := if F64.neg x then -(F64.grid x : Int) else (F64.grid x : Int)

/-- The magnitude nearest to `num / den` grid units, ties to the even one, an overflow giving infinity (R8). The shift `sh` keeps
53 bits of quotient; because the exponent stands above the fraction, adding `sh · 2^52` to the quotient builds the pattern,
and a carry out of the fraction steps the exponent by itself. -/
def F64.roundMag (num den : Nat) : Nat :=
  let sh := (num / den).log2 - 52
  let d := den * 2 ^ sh
  let q := num / d
  let r := num % d
  let up := if d < 2 * r ∨ (2 * r = d ∧ q % 2 = 1) then 1 else 0
  min (sh * 2 ^ 52 + q + up) F64.infMag

/-- `± num / den` grid units, rounded (R8). -/
def F64.round (neg : Bool) (num den : Nat) : Bits64 := F64.ofMag neg (F64.roundMag num den)

/-- The integer part of the square root, one bit at a time from bit `b - 1` down. -/
def F64.isqrtFrom (k : Nat) : Nat → Nat → Nat
  | 0, r => r
  | b + 1, r => if (r + 2 ^ b) * (r + 2 ^ b) ≤ k then F64.isqrtFrom k b (r + 2 ^ b) else F64.isqrtFrom k b r

/-- The integer part of the square root. -/
def F64.isqrt (k : Nat) : Nat := F64.isqrtFrom k (k.log2 / 2 + 1) 0

/-! ### The operations (R7, R8) -/

/-- `ofInt`: the binary64 number nearest to an integer. -/
def F64.ofInt (v : Int) : Bits64 := F64.round (decide (v < 0)) (v.natAbs * F64.unit) 1

/-- Addition: an exact zero sum is +0 unless both operands are negative. -/
def F64.add (a b : Bits64) : Bits64 :=
  if F64.isNaN a || F64.isNaN b then F64.qNaN
  else if F64.isInf a then (if F64.isInf b && F64.neg a != F64.neg b then F64.qNaN else a)
  else if F64.isInf b then b
  else
    let s := F64.gridInt a + F64.gridInt b
    if s = 0 then F64.ofMag (F64.neg a && F64.neg b) 0 else F64.round (decide (s < 0)) s.natAbs 1

/-- The number with the other sign. -/
def F64.negate (a : Bits64) : Bits64 := a ^^^ 0x8000000000000000#64

/-- Subtraction: the sum with the second operand's sign changed. -/
def F64.sub (a b : Bits64) : Bits64 := F64.add a (F64.negate b)

/-- Multiplication: the sign is the exclusive or of the signs; infinity times zero is a NaN. -/
def F64.mul (a b : Bits64) : Bits64 :=
  let neg := F64.neg a != F64.neg b
  if F64.isNaN a || F64.isNaN b then F64.qNaN
  else if F64.isInf a || F64.isInf b then
    (if F64.isZero a || F64.isZero b then F64.qNaN else F64.ofMag neg F64.infMag)
  else F64.round neg (F64.grid a * F64.grid b) F64.unit

/-- Division: 0/0 and infinity/infinity are NaNs; a number over zero is an infinity, a number over infinity a zero. -/
def F64.div (a b : Bits64) : Bits64 :=
  let neg := F64.neg a != F64.neg b
  if F64.isNaN a || F64.isNaN b then F64.qNaN
  else if F64.isInf a then (if F64.isInf b then F64.qNaN else F64.ofMag neg F64.infMag)
  else if F64.isInf b then F64.ofMag neg 0
  else if F64.isZero b then (if F64.isZero a then F64.qNaN else F64.ofMag neg F64.infMag)
  else F64.round neg (F64.grid a * F64.unit) (F64.grid b)

/-- Square root: of a zero that zero, of another negative number a NaN. The root in half grid units carries a last bit that says
whether it is exact, so that the one rounding is that of the exact root. -/
def F64.sqrt (a : Bits64) : Bits64 :=
  if F64.isNaN a then F64.qNaN
  else if F64.isZero a then a
  else if F64.neg a then F64.qNaN
  else if F64.isInf a then a
  else
    let k := F64.grid a * F64.unit
    let s := F64.isqrt k
    F64.round false (2 * s + (if s * s = k then 0 else 1)) 2

/-- The place of a number that is no NaN in the order of values: the two zeros share one place. -/
def F64.key (x : Bits64) : Int := if F64.neg x then -(F64.mag x : Int) else (F64.mag x : Int)

/-- `gt`: false whenever an operand is not a number (R7). -/
def F64.gt (a b : Bits64) : Bool := !F64.isNaN a && !F64.isNaN b && decide (F64.key b < F64.key a)

/-- `ge`: false whenever an operand is not a number (R7). -/
def F64.ge (a b : Bits64) : Bool := !F64.isNaN a && !F64.isNaN b && decide (F64.key b ≤ F64.key a)

/-- `truncToNat`: the integer part toward zero; R7 uses it on values in (0, 255) only (assumption log 19 for the others). -/
def F64.truncToNat (v : Bits64) : Nat := if F64.neg v then 0 else F64.grid v / F64.unit

/-- `PI`: the binary64 value nearest to π (R8). -/
def F64.pi : Bits64 := 0x400921FB54442D18#64

/-- `HALF`: the value 0.5 (R8). -/
def F64.half : Bits64 := 0x3FE0000000000000#64

/-- `enc`: the cell image of a number on the host port is its pattern (R8). -/
def F64.enc (v : Bits64) : Cell := v

/-- `dec`: the number a cell image stands for is its pattern (R8). -/
def F64.dec (d : Cell) : Bits64 := d

end Sys2Proof
end

