-- ==== Sys2Proof/Config.lean ====
section
/-! DEFINITION. What is fixed for the machine: the constants of 00_scope R5 and 10_state R37, the three functions of `NUM.f64` the
spec leaves open with the only properties it lets a model assume (R9), and the free values (93_implementation_defined U3, U15). -/

namespace Sys2Proof

/-! ### The fixed parameters (R5) -/

/-- `NMAX`, `FRAMELEN`: the largest transform length, the frame length and the window length. -/
def Config.nMax : Nat := 2048
/-- `TWMAX`: entries of each twiddle table. -/
def Config.twMax : Nat := 1024
/-- `HEIGHT`: the pixel-column length of FRAME and the size of `PIX`. -/
def Config.height : Nat := 1024
/-- `PALN`: palette entries. -/
def Config.palN : Nat := 256
/-- `K_TEN`: the factor of `10·log10`. -/
def Config.kTen : Int := 10
/-- `K_GAIN`: the gain. -/
def Config.kGain : Int := 4
/-- `K_OFFS`: the offset taken off. -/
def Config.kOffs : Int := 43
/-- `K_LO`: the lower clamp bound. -/
def Config.kLo : Int := 0
/-- `K_HI`: the upper clamp bound. -/
def Config.kHi : Int := 255
/-- `PAL_KNEE`: green and blue are 0 at and below this intensity. -/
def Config.palKnee : Nat := 100
/-- `PAL_DIV`: the divisor of the green and blue ramp. -/
def Config.palDiv : Nat := 156
/-- `PAL_MUL`: the multiplier of the green and blue ramp. -/
def Config.palMul : Nat := 255
/-- `HOPDIV`: the host's hop divisor. -/
def Config.hopDiv : Nat := 100

/-- The constant cell `ID` (R37): `NMAX` in [15:0], `HEIGHT` in [31:16], command set 1 in [39:32], format code 1 in [47:40]. -/
def Config.idWord : Cell := 0x0000010104000800#64

/-! ### fcos, fsin, flog10 (R8, R9, U14) -/

/-- Three functions on binary64 numbers, each depending on its operand alone, with the named properties of R9 and no others. -/
structure Config.Transcendental where
  fcos   : Bits64 → Bits64
  fsin   : Bits64 → Bits64
  flog10 : Bits64 → Bits64
  /-- `P-COS0` (R9): the cosine of a zero of either sign is `ofInt 1`. -/
  cos0 : ∀ z, F64.isZero z = true → fcos z = F64.ofInt 1
  /-- `P-SIN0` (R9): the sine of a zero of either sign is a zero. -/
  sin0 : ∀ z, F64.isZero z = true → F64.isZero (fsin z) = true
  /-- `P-TRIG-FIN` (R9), the cosine: at a finite operand finite, of absolute value at most 1. -/
  cosFin : ∀ x, F64.isFinite x = true → F64.isFinite (fcos x) = true ∧ F64.mag (fcos x) ≤ F64.mag F64.one
  /-- `P-TRIG-FIN` (R9), the sine. -/
  sinFin : ∀ x, F64.isFinite x = true → F64.isFinite (fsin x) = true ∧ F64.mag (fsin x) ≤ F64.mag F64.one
  /-- `P-LOG-POS` (R9), finite operands: the logarithm of a finite number above 0 is finite. -/
  logPos : ∀ x, F64.isFinite x = true → F64.gt x F64.zero = true → F64.isFinite (flog10 x) = true
  /-- `P-LOG-POS` (R9), +infinity. -/
  logInf : flog10 F64.inf = F64.inf
  /-- `P-LOG-MONO` (R9): non-decreasing on positive operands. -/
  logMono : ∀ x y, F64.gt x F64.zero = true → F64.ge y x = true → F64.ge (flog10 y) (flog10 x) = true

/-- Only +infinity is at least +infinity. -/
theorem Config.eq_inf_of_ge (y : Bits64) (h : F64.ge y F64.inf = true) : y = F64.inf := by
  have hk : F64.key F64.inf = (F64.infMag : Int) := by decide
  have hy := y.isLt
  simp only [F64.ge, hk, Bool.and_eq_true, Bool.not_eq_true', decide_eq_true_eq] at h
  obtain ⟨⟨h1, -⟩, h2⟩ := h
  replace h1 : ¬ F64.infMag < F64.mag y := of_decide_eq_false h1
  simp only [F64.mag, F64.infMag] at h1
  simp only [F64.key, F64.mag, F64.neg, F64.infMag, BitVec.getLsbD, Nat.testBit_eq_decide_div_mod_eq,
    decide_eq_true_eq] at h2
  apply BitVec.eq_of_toNat_eq
  simp only [F64.inf, BitVec.toNat_ofNat]
  split at h2 <;> omega

/-- Some three functions have the properties (constants will do), so assuming them assumes no contradiction. -/
@[reducible] def Config.someTranscendental : Inhabited Config.Transcendental where
  default :=
    { fcos := fun _ => F64.ofInt 1
      fsin := fun _ => F64.zero
      flog10 := fun x => if x = F64.inf then F64.inf else F64.zero
      cos0 := fun _ _ => rfl
      sin0 := fun _ _ => by decide
      cosFin := fun _ _ => by decide +kernel
      sinFin := fun _ _ => by decide
      logPos := fun x hx _ => by
        have : x ≠ F64.inf := fun h => by subst h; revert hx; decide
        simp only [this, if_false]; decide
      logInf := by simp
      logMono := fun x y _ hyx => by
        by_cases hx : x = F64.inf
        · have hy : y = F64.inf := Config.eq_inf_of_ge y (hx ▸ hyx)
          simp only [hx, hy, if_true]; decide
        · by_cases hy : y = F64.inf
          · simp only [hx, hy, if_true, if_false]; decide
          · simp only [hx, hy, if_false]; decide }

/-- The three functions of this machine: NO BODY. Nothing can be proved of them but the properties of R9 (U14; assumption log 5).
The bracketed argument only says that such functions exist. -/
opaque Config.transcendental [Inhabited Config.Transcendental] : Config.Transcendental

/-- The three functions of this machine. -/
def Config.math : Config.Transcendental := @Config.transcendental Config.someTranscendental

/-! ### Free values: NO BODY, nothing can be proved of them -/

/-- What a read of a cell that holds no value gives (U3, "any value (each read of such a cell is a draw)"): it depends on the
draw counter, the array and the index, under no law (assumption logs 1, 2). -/
opaque Config.freeCell : Nat → Buf → Nat → Cell

/-- The bits an implementation makes the payload and sign of a computed NaN from (U15, "any value among NaN bit patterns (a draw)"):
it depends on the draw counter, the array and the index of the cell written (assumption log 3). -/
opaque Config.freeNan : Nat → Buf → Nat → Bits64

end Sys2Proof
end

