-- ==== Sys2Proof/Machine/Num.lean ====
section
/-! DEFINITION. The number format as a record (00_scope R7) and its default member `NUM.f64` (R8). Every arithmetic step of a rule is one
application of a function of the record. `enc` and `dec` are `F64.enc` and `F64.dec`: only `NUM.f64` has a bus image (R10). -/

namespace Sys2Proof

/-- The number format `NUM` over a carrier `T` (R7). -/
structure Num (T : Type) where
  ofInt : Int → T
  fadd : T → T → T
  fsub : T → T → T
  fmul : T → T → T
  fdiv : T → T → T
  fsqrt : T → T
  fcos : T → T
  fsin : T → T
  flog10 : T → T
  pi : T
  half : T
  gt : T → T → Bool
  ge : T → T → Bool
  truncToNat : T → Nat

/-- `NUM.f64`, the default instance (R8). -/
def Num.f64 : Num Bits64 where
  ofInt := F64.ofInt
  fadd := F64.add
  fsub := F64.sub
  fmul := F64.mul
  fdiv := F64.div
  fsqrt := F64.sqrt
  fcos := Config.math.fcos
  fsin := Config.math.fsin
  flog10 := Config.math.flog10
  pi := F64.pi
  half := F64.half
  gt := F64.gt
  ge := F64.ge
  truncToNat := F64.truncToNat

end Sys2Proof
end

