-- ==== Sys2Proof/Syntax.lean ====
section
/-! DEFINITION. The seven commands of command set 1 (30_encoding R92), one constructor per row of the opcode table. -/

namespace Sys2Proof

/-- The names of the seven rows of the opcode map (R92). -/
inductive Opcode where
  | nop | win | fft | fftr | mag | scale | frame
  deriving DecidableEq, Repr

/-- A command with its operands. The operands are the unsigned integers of the 12-bit fields `a` and `b`, used as they stand (R91). -/
inductive Instr where
  /-- `NOP` (44_control R222). -/
  | nop
  /-- `WIN len`: apply the window to a frame declared `len` long (40_window R123). -/
  | win (len : Nat)
  /-- `FFT nr, ni`: complex transform, real length `nr`, imaginary length `ni` (41_fft R144). -/
  | fft (nr ni : Nat)
  /-- `FFTR n`: transform of a real input, the imaginary input absent (41_fft R148). -/
  | fftr (n : Nat)
  /-- `MAG n`: magnitude spectrum of a real input (41_fft R150). -/
  | mag (n : Nat)
  /-- `SCALE h`: magnitudes to a pixel column of height `h` (42_scale R181). -/
  | scale (h : Nat)
  /-- `FRAME`: the whole per-frame pipeline (44_control R223). -/
  | frame
  deriving DecidableEq, Repr

/-- The row of the opcode map a command belongs to. -/
def Instr.opcode : Instr → Opcode
  | .nop => .nop
  | .win _ => .win
  | .fft _ _ => .fft
  | .fftr _ => .fftr
  | .mag _ => .mag
  | .scale _ => .scale
  | .frame => .frame

end Sys2Proof
end

