-- ==== Sys2Proof/WellFormed.lean ====
section
/-! DEFINITION. When a command can be written as a command word: every operand fits its 12-bit field (30_encoding R90). Bad lengths and
heights are well-formed: they decode, and the command's own rule faults (R90, R92). -/

namespace Sys2Proof

/-- The operand fits a 12-bit field: 0 to 4095 (R90). -/
def fitsField (v : Nat) : Bool := decide (v < 4096)

/-- Every operand of the command fits its field. -/
def Instr.wf : Instr → Bool
  | .nop => true
  | .win len => fitsField len
  | .fft nr ni => fitsField nr && fitsField ni
  | .fftr n => fitsField n
  | .mag n => fitsField n
  | .scale h => fitsField h
  | .frame => true

end Sys2Proof
end

