-- ==== Sys2Proof/Decode.lean ====
section
/-! DEFINITION. The decoder and the encoder of command words (30_encoding R90 to R94, R97). -/

namespace Sys2Proof

/-- Why write data spells no command (R94). -/
inductive Illegal where
  /-- `d[63:32]` is not 0. -/
  | highData
  /-- `rsv` is not 0. -/
  | reservedBits
  /-- `op` in [6, 15]. -/
  | reservedOp
  /-- `ia = 1` with `op` other than 2. -/
  | strayIa
  /-- `b` is not 0 where the row has no `b`. -/
  | strayB
  /-- `a` is not 0 where the row has no `a`. -/
  | strayA
  deriving DecidableEq, Repr

/-! ### The fields of a command word (R90) -/

/-- `op[31:28]`. -/
def opField (w : CmdWord) : Nat := w.toNat / 2 ^ 28
/-- `ia[27]`. -/
def iaField (w : CmdWord) : Nat := w.toNat / 2 ^ 27 % 2
/-- `rsv[26:24]`. -/
def rsvField (w : CmdWord) : Nat := w.toNat / 2 ^ 24 % 2 ^ 3
/-- `b[23:12]`. -/
def bField (w : CmdWord) : Nat := w.toNat / 2 ^ 12 % 2 ^ 12
/-- `a[11:0]`. -/
def aField (w : CmdWord) : Nat := w.toNat % 2 ^ 12

/-! ### Decoding -/

/-- A row with neither operand: `ia`, `b` and `a` must be 0. -/
def decodePlain (i : Instr) (ia b a : Nat) : Except Illegal Instr :=
  if ia ≠ 0 then .error .strayIa else if b ≠ 0 then .error .strayB else if a ≠ 0 then .error .strayA else .ok i

/-- A row with the operand `a` only: `ia` and `b` must be 0. -/
def decodeOne (i : Nat → Instr) (ia b a : Nat) : Except Illegal Instr :=
  if ia ≠ 0 then .error .strayIa else if b ≠ 0 then .error .strayB else .ok (i a)

/-- `op = 2`: with `ia = 1` it is `FFTR`, whose `b` must be 0; with `ia = 0` it is `FFT`. -/
def decodeTransform (ia b a : Nat) : Except Illegal Instr :=
  if ia = 0 then .ok (.fft a b) else if b ≠ 0 then .error .strayB else .ok (.fftr a)

/-- The command a 32-bit command word spells, or why it spells none (R92, R94). -/
def decodeWord (w : CmdWord) : Except Illegal Instr :=
  if rsvField w ≠ 0 then .error .reservedBits
  else match opField w with
    | 0 => decodePlain .nop (iaField w) (bField w) (aField w)
    | 1 => decodeOne .win (iaField w) (bField w) (aField w)
    | 2 => decodeTransform (iaField w) (bField w) (aField w)
    | 3 => decodeOne .mag (iaField w) (bField w) (aField w)
    | 4 => decodeOne .scale (iaField w) (bField w) (aField w)
    | 5 => decodePlain .frame (iaField w) (bField w) (aField w)
    | _ => .error .reservedOp

/-- Decoding the data of a write to `CMD`: total, and it reads no state (R93). -/
def decode (d : Cell) : Except Illegal Instr :=
  if d.toNat / 2 ^ 32 ≠ 0 then .error .highData else decodeWord (d.setWidth 32)

/-- The command the decoder reads from an instruction of `nbits` bits `w`, the bits above them 0 (`none` where it refuses). -/
def decodeTableWord (nbits w : Nat) : Option Instr :=
  if w % 2 ^ nbits < 2 ^ 64 then
    match decode (BitVec.ofNat 64 (w % 2 ^ nbits)) with
    | .ok i => some i
    | .error _ => none
  else none

/-! ### Encoding -/

/-- The command word with these fields, `rsv` being 0 (R90). -/
def packWord (op ia b a : Nat) : CmdWord := BitVec.ofNat 32 (op * 2 ^ 28 + ia * 2 ^ 27 + b * 2 ^ 12 + a)

/-- The command word of a well-formed command (R92). -/
def encode : Instr → CmdWord
  | .nop => packWord 0 0 0 0
  | .win len => packWord 1 0 0 len
  | .fft nr ni => packWord 2 0 ni nr
  | .fftr n => packWord 2 1 0 n
  | .mag n => packWord 3 0 0 n
  | .scale h => packWord 4 0 0 h
  | .frame => packWord 5 0 0 0

/-- The data of the write to `CMD` that presents a command (R31, R90): the command word, bits [63:32] being 0. -/
def cmdData (i : Instr) : Cell := (encode i).setWidth 64

/-! ### The opcode map as the spec prints it (R92): a check on the decoder, used by statements only -/

/-- One row of the opcode map: a word `w` spells the row's command when `w & mask = pattern`. -/
structure OpcodeRow where
  opcode  : Opcode
  mask    : CmdWord
  pattern : CmdWord
  deriving DecidableEq, Repr

/-- The seven rows (R92). -/
def opcodeMap : List OpcodeRow :=
  [ ⟨.nop,   0xFFFFFFFF#32, 0x00000000#32⟩,
    ⟨.win,   0xFFFFF000#32, 0x10000000#32⟩,
    ⟨.fft,   0xFF000000#32, 0x20000000#32⟩,
    ⟨.fftr,  0xFFFFF000#32, 0x28000000#32⟩,
    ⟨.mag,   0xFFFFF000#32, 0x30000000#32⟩,
    ⟨.scale, 0xFFFFF000#32, 0x40000000#32⟩,
    ⟨.frame, 0xFFFFFFFF#32, 0x50000000#32⟩ ]

/-- The command of a row with the operand values `a` and `b`; a row without an operand drops it (R92). -/
def Opcode.command (o : Opcode) (a b : Nat) : Instr :=
  match o with
  | .nop => .nop
  | .win => .win a
  | .fft => .fft a b
  | .fftr => .fftr a
  | .mag => .mag a
  | .scale => .scale a
  | .frame => .frame

/-- Whether a word matches a row (R92). -/
def OpcodeRow.spells (r : OpcodeRow) (w : CmdWord) : Bool := w &&& r.mask == r.pattern

end Sys2Proof
end

