-- ==== Sys2Proof/Machine/State.lean ====
section
/-! DEFINITION. The state of the block as plain data (10_state R20 to R40), the state after hardware reset (70_reset_and_hazards R311),
the transactions and responses of the host port (20_memory R62), and the names of the latched faults (60_exceptions R271). -/

namespace Sys2Proof.Machine

/-- An array whose cells may hold no value: the written cells as (index, value) pairs, indexes rising. A cell that is not listed has not
been written since the array last lost its contents (R311, R312; 93_implementation_defined U3; assumption logs 1, 11). -/
abbrev Cells (α : Type) := List (Nat × α)

/-- What the host can do in one step (R14): a transaction on the host port (R62) or the hardware reset (R310). -/
inductive Txn where
  /-- `HostRead(a)` (R63). -/
  | read (a : Addr)
  /-- `HostWrite(a, d)` (R64). -/
  | write (a : Addr) (d : Cell)
  /-- The hardware reset (R310). -/
  | reset
  deriving DecidableEq, Repr

/-- A response of the host port (R62). -/
inductive Resp where
  /-- `OK` of a write. -/
  | ok
  /-- `OK(d)` of a read. -/
  | data (d : Cell)
  /-- `ERR`. -/
  | err
  deriving DecidableEq, Repr

/-- The faults the block latches in `STATUS` (R271). Raising one is a next state (R275), never an end of the run. -/
inductive FaultCode where
  /-- The length operand is not in {1, 2, 4, ..., 2048} (FFT, FFTR, MAG). -/
  | eLen
  /-- The imaginary length differs from the real one (FFT). -/
  | eMismatch
  /-- The frame length is not 2048 (WIN). -/
  | eFrameLen
  /-- The height is not in [1, min(1024, MLEN)] (SCALE). -/
  | eHeight
  /-- The write data spells no command. -/
  | eIllCmd
  deriving DecidableEq, Repr

/-- How the machine could stop with a fault: in no way. The spec gives the block no stop: its faults are latched, the engine is then
halted, and it still answers every transaction (R272, R275, R277). Safe: nothing is hidden behind a stop. -/
inductive Fault where
  deriving DecidableEq, Repr

/-- Why a step is given no meaning. -/
inductive Refusal where
  /-- Raised by an arm of `exec` whose instruction has no meaning yet: by none. Safe: a refused step proves nothing. -/
  | notModelled (mnemonic : String)
  /-- Raised by `strictStep` only, never by `step`: the host's access is reserved, of the wrong direction, or an `MLEN` above 2048, so the
  host program is wrong and no claim should rest on it (R65, U10). Safe. -/
  | hostError
  /-- Raised by `strictStep` only, never by `step`: the transaction consumes a cell that holds no value (R320, U3). Safe. -/
  | unwritten
  deriving DecidableEq, Repr

/-- The state. The first twelve fields are the spec's (R20); the last three are the model's own (assumption logs 2, 6, 8). The spec leaves the
number format `NUM` open (R7; 92_eei_decisions D2). The model chooses its default member `NUM.f64` for the machine: the number cells hold binary64
patterns, and `exec` and `step` compute with `Num.f64` (DESIGN CHOICE, assumption log 22). -/
structure State where
  /-- `SMP[0..2047]`, the sample buffer (R27). -/
  smp : Cells Sample
  /-- `XR[0..2047]`, the real parts (R28). -/
  xr : Cells Bits64
  /-- `XI[0..2047]`, the imaginary parts (R28). -/
  xi : Cells Bits64
  /-- `MAG[0..2047]`, the magnitudes (R29). -/
  mag : Cells Bits64
  /-- `PIX[0..1023]`, the pixel column (R30). -/
  pix : Cells Intensity
  /-- `TWLEN`, the key of the twiddle cache, 0 when no table has been built (R26, R35). -/
  twlen : Nat
  /-- `TWC[0..1023]`, the cosines (R26). -/
  twc : Cells Bits64
  /-- `TWS[0..1023]`, the sines (R26). -/
  tws : Cells Bits64
  /-- `MLEN`, the number of valid magnitudes (R34). -/
  mlen : Nat
  /-- `STATUS.ERR` (R23, R32). -/
  err : Bool
  /-- `STATUS.ERRCODE` (R32). -/
  errCode : BitVec 4
  /-- `ERRINFO` (R33). -/
  errInfo : Cell
  /-- The model's own: the host's transactions still to come, oldest first. -/
  port : List Txn
  /-- The model's own: the responses given so far, newest first. -/
  resps : List Resp
  /-- The model's own: the counter the free values of Config are applied to. -/
  draw : Nat
  deriving DecidableEq, Repr

/-- The state after hardware reset (R311): the arrays hold no value, `TWLEN`, `MLEN`, `STATUS` and `ERRINFO` are 0. The model's own
fields: no transaction pending, no response given, the draw counter 0 (DESIGN CHOICE, assumption logs 2, 6, 8). -/
def State.reset : State where
  smp := []
  xr := []
  xi := []
  mag := []
  pix := []
  twlen := 0
  twc := []
  tws := []
  mlen := 0
  err := false
  errCode := 0#4
  errInfo := 0#64
  port := []
  resps := []
  draw := 0

end Sys2Proof.Machine
end

