-- ==== Sys2Proof/Machine/Flags.lean ====
section
/-! DEFINITION. The one flag and the status word (10_state R23, R32): the codes of the latched faults and what `STATUS` reads as. No command
computes a condition code (R23). -/

namespace Sys2Proof.Machine

/-- The 4-bit code of a fault (60_exceptions R271). -/
def faultCode : FaultCode → BitVec 4
  | .eLen => 1#4
  | .eMismatch => 2#4
  | .eFrameLen => 3#4
  | .eHeight => 4#4
  | .eIllCmd => 5#4

/-- What `STATUS` reads as: `ERR` in bit 0, bits [3:1] 0, `ERRCODE` in [7:4], bits [63:8] 0 (R32, R63). -/
def statusWord (s : State) : Cell := (s.errCode ++ 0#3 ++ BitVec.ofBool s.err).setWidth 64

end Sys2Proof.Machine
end

