-- ==== Sys2Proof/Machine/Operands.lean ====
section
/-! DEFINITION. The operand checks of the commands (30_encoding R91; 41_fft R141, 40_window R123, 42_scale R181) and the cell images of the
buffers (10_state R27, R30). -/

namespace Sys2Proof.Machine

/-- A legal transform length: `1 <= n <= 2048` and `n & (n - 1) = 0` (R141). -/
def legalLen (n : Nat) : Bool := decide (1 ≤ n) && decide (n ≤ Config.nMax) && decide (n &&& (n - 1) = 0)

/-- A legal frame length: that of the window (R123). -/
def legalFrame (len : Nat) : Bool := decide (len = Config.nMax)

/-- A legal pixel height: `1 <= h`, `h <= 1024` and `h <= MLEN` (R181). -/
def legalHeight (h mlen : Nat) : Bool := decide (1 ≤ h) && decide (h ≤ Config.height) && decide (h ≤ mlen)

/-- The sample a cell image stands for: bit 32 is `nn`, bits [31:0] are `v`, bits [63:33] are ignored (R27, R64). -/
def sampleOfCell (d : Cell) : Sample := ⟨d.getLsbD 32, d.setWidth 32⟩

/-- The cell image of a sample: bits [63:33] read as 0 (R27, R63). -/
def cellOfSample (x : Sample) : Cell := (BitVec.ofBool x.nn ++ x.v).setWidth 64

/-- The intensity a cell image stands for: bits [7:0]; bits [63:8] are ignored (R30, R64). -/
def intensityOfCell (d : Cell) : Intensity := d.setWidth 8

/-- The cell image of an intensity or a color: zero-extended (R63). -/
def cellOfIntensity (p : Intensity) : Cell := p.setWidth 64

/-- The cell image of a color (R63, R204). -/
def cellOfColor (c : Color) : Cell := c.setWidth 64

end Sys2Proof.Machine
end

