-- ==== Sys2Proof/Machine/Ops.lean ====
section
/-! DEFINITION. The named operations over the arrays and registers: cell lists, reads with their free values, the writes, taking a fault
(60_exceptions R275), and the two resets (70_reset_and_hazards R310 to R312; there is no other return from a fault, R277). -/

namespace Sys2Proof.Machine

/-! ### Cell lists -/

/-- The value cell `i` holds, `none` where it holds none. -/
def Cells.look {α : Type} : Cells α → Nat → Option α
  | [], _ => none
  | (k, v) :: c, i => if k = i then some v else Cells.look c i

/-- `A[i] <- v` (R12). -/
def Cells.put {α : Type} (i : Nat) (v : α) (c : Cells α) : Cells α :=
  c.filter (fun e => decide (e.1 < i)) ++ (i, v) :: c.filter (fun e => decide (i < e.1))

/-- `for i in [0, n): A[i] <- f(i)` (R12), cells at `n` and above kept. -/
def Cells.fill {α : Type} (n : Nat) (f : Nat → α) (c : Cells α) : Cells α :=
  (List.range n).map (fun i => (i, f i)) ++ c.filter (fun e => decide (n ≤ e.1))

/-- The canonical form of an array of `size` cells: indexes strictly rising and inside the array, so that equal contents are equal lists. -/
abbrev Cells.wf {α : Type} (size : Nat) (c : Cells α) : Prop :=
  c.Pairwise (fun x y => x.1 < y.1) ∧ ∀ e ∈ c, e.1 < size

/-- The canonical form of all seven arrays (sizes: R26 to R30). -/
abbrev Memory.wf (s : State) : Prop :=
  Cells.wf Config.nMax s.smp ∧ Cells.wf Config.nMax s.xr ∧ Cells.wf Config.nMax s.xi ∧ Cells.wf Config.nMax s.mag ∧
    Cells.wf Config.height s.pix ∧ Cells.wf Config.twMax s.twc ∧ Cells.wf Config.twMax s.tws

/-! ### Reads: a cell that holds no value gives a free value (U3; assumption log 1) -/

def State.rdSmp (s : State) (i : Nat) : Sample :=
  (s.smp.look i).getD (sampleOfCell (Config.freeCell s.draw .smp i))
def State.rdXr (s : State) (i : Nat) : Bits64 := (s.xr.look i).getD (F64.dec (Config.freeCell s.draw .xr i))
def State.rdXi (s : State) (i : Nat) : Bits64 := (s.xi.look i).getD (F64.dec (Config.freeCell s.draw .xi i))
def State.rdMag (s : State) (i : Nat) : Bits64 := (s.mag.look i).getD (F64.dec (Config.freeCell s.draw .mag i))
def State.rdPix (s : State) (i : Nat) : Intensity :=
  (s.pix.look i).getD (intensityOfCell (Config.freeCell s.draw .pix i))
def State.rdTwc (s : State) (i : Nat) : Bits64 := (s.twc.look i).getD (F64.dec (Config.freeCell s.draw .twc i))
def State.rdTws (s : State) (i : Nat) : Bits64 := (s.tws.look i).getD (F64.dec (Config.freeCell s.draw .tws i))

/-! ### The free value of a computed NaN (U15; assumption log 3) -/

/-- A NaN of which only that it is a NaN can be proved. -/
def anyNaN (draw : Nat) (b : Buf) (i : Nat) : Bits64 :=
  if F64.isNaN (Config.freeNan draw b i) then Config.freeNan draw b i else F64.qNaN

/-- The pattern a cell gets when an operation's result is written to it: the result, but a NaN's payload and sign are free. -/
def State.settleNan (s : State) (b : Buf) (i : Nat) (v : Bits64) : Bits64 :=
  if F64.isNaN v then anyNaN s.draw b i else v

/-! ### Writes of one element of the state -/

def State.setSmp (c : Cells Sample) (s : State) : State := { s with smp := c }
def State.setXr (c : Cells Bits64) (s : State) : State := { s with xr := c }
def State.setXi (c : Cells Bits64) (s : State) : State := { s with xi := c }
def State.setMag (c : Cells Bits64) (s : State) : State := { s with mag := c }
def State.setPix (c : Cells Intensity) (s : State) : State := { s with pix := c }
def State.setMlen (n : Nat) (s : State) : State := { s with mlen := n }
/-- The twiddle tables together with their key (R142). -/
def State.setTables (n : Nat) (c t : Cells Bits64) (s : State) : State := { s with twlen := n, twc := c, tws := t }
/-- The model's own list of transactions still to come. -/
def State.setPort (p : List Txn) (s : State) : State := { s with port := p }

/-! ### Taking a fault (R275) -/

/-- `raise Fault(code)` during the write of `d` to `CMD`: the code and all 64 bits of the data are latched, nothing else changes (R275). -/
def State.latchFault (c : FaultCode) (d : Cell) (s : State) : State :=
  { s with err := true, errCode := faultCode c, errInfo := d }

/-- A command's own `raise Fault(code)`: the data recorded is the command's word (R33, R275; assumption log 10). -/
def raiseFault (c : FaultCode) (i : Instr) (s : State) : Host.Outcome State Fault Refusal :=
  .next (s.latchFault c (cmdData i))

/-! ### Resets -/

/-- The soft reset (R312): the registers are 0, the tables lose their values, the five buffers keep their contents. -/
def State.softReset (s : State) : State :=
  { s with twlen := 0, twc := [], tws := [], mlen := 0, err := false, errCode := 0#4, errInfo := 0#64 }

/-- The hardware reset (R310, R311): the soft reset, then every buffer cell loses its value (R312). The model's own fields stay
(assumption log 13). -/
def State.hardReset (s : State) : State :=
  { s.softReset with smp := [], xr := [], xi := [], mag := [], pix := [] }

/-! ### The end of a transaction -/

/-- A transaction is over: its response, if it has one, is given and the draw counter goes on (assumption logs 2, 8). -/
def State.complete (r : Option Resp) (s : State) : State :=
  { s with resps := r.toList ++ s.resps, draw := s.draw + 1 }

end Sys2Proof.Machine
end

