-- ==== Sys2Proof/Machine/Fft.lean ====
section
/-! DEFINITION. The FFT engine: the twiddle cache, the butterfly recursion, the magnitude unit, and the commands `FFT`, `FFTR`, `MAG`
(41_fft R140 to R151). -/

namespace Sys2Proof.Machine

/-! ### The twiddle table (R143) -/

/-- The angle of entry `k` at length `n`: `((−2·π)·k) / n`. -/
def twTheta {T : Type} (o : Num T) (k n : Nat) : T :=
  o.fdiv (o.fmul (o.fmul (o.ofInt (-2)) o.pi) (o.ofInt k)) (o.ofInt n)

/-- `tw_cos(k, n)`. -/
def twCos {T : Type} (o : Num T) (k n : Nat) : T := o.fcos (twTheta o k n)

/-- `tw_sin(k, n)`: the sine of the negative angle, so no rule negates a table value. -/
def twSin {T : Type} (o : Num T) (k n : Nat) : T := o.fsin (twTheta o k n)

/-- `cache_prepare(n)` (R142): rebuild when the length differs from the key, otherwise reuse; length 1 leaves the cache alone. -/
def State.cachePrepare (n : Nat) (s : State) : State :=
  if 2 ≤ n ∧ s.twlen ≠ n then
    s.setTables n (s.twc.fill (n / 2) (fun k => twCos Num.f64 k n)) (s.tws.fill (n / 2) (fun k => twSin Num.f64 k n))
  else s

/-- `T = (TWC[k], TWS[k])` (R145). -/
def State.twiddle (s : State) (k : Nat) : Cx Bits64 := ⟨s.rdTwc k, s.rdTws k⟩

/-! ### The transform (R145) -/

/-- The even-indexed half of a sequence. -/
def evens {α : Type} : List α → List α
  | [] => []
  | [a] => [a]
  | a :: _ :: l => a :: evens l

/-- The odd-indexed half of a sequence. -/
def odds {α : Type} : List α → List α
  | [] => []
  | [_] => []
  | _ :: b :: l => b :: odds l

/-- The product `T · O`: twiddle as the left factor, the real part a difference of two products, the imaginary part a sum (R145). -/
def cxMul {T : Type} (o : Num T) (t x : Cx T) : Cx T :=
  ⟨o.fsub (o.fmul t.re x.re) (o.fmul t.im x.im), o.fadd (o.fmul t.re x.im) (o.fmul t.im x.re)⟩

/-- `E + P` (R145). -/
def cxAdd {T : Type} (o : Num T) (e p : Cx T) : Cx T := ⟨o.fadd e.re p.re, o.fadd e.im p.im⟩

/-- `E − P` (R145). -/
def cxSub {T : Type} (o : Num T) (e p : Cx T) : Cx T := ⟨o.fsub e.re p.re, o.fsub e.im p.im⟩

/-- `fft_rec(n, x)` on a sequence of length `2^d`, `n` being the top-level length and `tw` the table built for it (R145). The twiddle of
butterfly `i` is read with the stride `n / 2^d` (R146). -/
def fftRec {T : Type} (o : Num T) (tw : Nat → Cx T) (n : Nat) : Nat → List (Cx T) → List (Cx T)
  | 0, x => x
  | d + 1, x =>
    let e := fftRec o tw n d (evens x)
    let p := (fftRec o tw n d (odds x)).mapIdx (fun i y => cxMul o (tw (i * (n / 2 ^ (d + 1)))) y)
    List.zipWith (cxAdd o) e p ++ List.zipWith (cxSub o) e p

/-- The magnitude of one bin: `sqrt(re² + im²)`, real square first (R150). -/
def magnitude {T : Type} (o : Num T) (x : Cx T) : T :=
  o.fsqrt (o.fadd (o.fmul x.re x.re) (o.fmul x.im x.im))

/-! ### The bodies of the commands -/

/-- The complex input of `FFT n, n`: `XR[i]`, `XI[i]` (R144). -/
def State.complexInput (n : Nat) (s : State) : List (Cx Bits64) :=
  (List.range n).map (fun i => ⟨s.rdXr i, s.rdXi i⟩)

/-- The real input of `FFTR n`, the imaginary parts being `ofInt 0` (R148). -/
def State.realInput (n : Nat) (s : State) : List (Cx Bits64) :=
  (List.range n).map (fun i => ⟨s.rdXr i, F64.ofInt 0⟩)

/-- The transform of length `n` with the table the state holds (R144, R145). -/
def State.transform (n : Nat) (x : List (Cx Bits64)) (s : State) : List (Cx Bits64) :=
  fftRec Num.f64 s.twiddle n n.log2 x

/-- The pattern output cell `i` of a transform of length `n` gets: for `n = 1` the input as it is, otherwise an operation's result,
whose NaN payload is free (R145; U15). -/
def State.outCell (n : Nat) (b : Buf) (i : Nat) (v : Bits64) (s : State) : Bits64 :=
  if n < 2 then v else s.settleNan b i v

/-- `XR[i] <- yr[i]; XI[i] <- yi[i]` for `i` in `[0, n)` (R144, R148). -/
def State.storeTransform (n : Nat) (y : List (Cx Bits64)) (s : State) : State :=
  (s.setXr (s.xr.fill n (fun i => s.outCell n .xr i (y.getD i ⟨F64.zero, F64.zero⟩).re))).setXi
    (s.xi.fill n (fun i => s.outCell n .xi i (y.getD i ⟨F64.zero, F64.zero⟩).im))

/-- `FFT n, n` of a legal length (R144). -/
def State.fftBody (n : Nat) (s : State) : State :=
  let t := s.cachePrepare n
  t.storeTransform n (t.transform n (t.complexInput n))

/-- `FFTR n` of a legal length (R148). -/
def State.fftrBody (n : Nat) (s : State) : State :=
  let t := s.cachePrepare n
  t.storeTransform n (t.transform n (t.realInput n))

/-- The magnitudes of the transform in `XR`, `XI` (R150). -/
def State.storeMagnitudes (n : Nat) (s : State) : State :=
  (s.setMag (s.mag.fill n (fun i => s.settleNan .mag i (magnitude Num.f64 ⟨s.rdXr i, s.rdXi i⟩)))).setMlen n

/-- `MAG n` of a legal length (R150). -/
def State.magBody (n : Nat) (s : State) : State := (s.fftrBody n).storeMagnitudes n

/-! ### The commands -/

/-- `FFT nr, ni`: the length is checked before the match (R144, R274). -/
def execFft (nr ni : Nat) (s : State) : Host.Outcome State Fault Refusal :=
  if legalLen nr then
    if ni = nr then .next (s.fftBody nr) else raiseFault .eMismatch (.fft nr ni) s
  else raiseFault .eLen (.fft nr ni) s

/-- `FFTR n` (R148). -/
def execFftr (n : Nat) (s : State) : Host.Outcome State Fault Refusal :=
  if legalLen n then .next (s.fftrBody n) else raiseFault .eLen (.fftr n) s

/-- `MAG n` (R150). -/
def execMag (n : Nat) (s : State) : Host.Outcome State Fault Refusal :=
  if legalLen n then .next (s.magBody n) else raiseFault .eLen (.mag n) s

end Sys2Proof.Machine
end

