-- ==== Sys2Proof/Machine/Scale.lean ====
section
/-! DEFINITION. The magnitude-to-decibel scaler with clamp: the command `SCALE` (42_scale R180 to R185). -/

namespace Sys2Proof.Machine

/-- The clamp and the truncation: 0 unless above 0 (a NaN too), 255 at or above 255, otherwise the integer part (R182). -/
def clampTrunc {T : Type} (o : Num T) (t : T) : Nat :=
  if o.gt t (o.ofInt Config.kLo) then
    if o.ge t (o.ofInt Config.kHi) then Config.kHi.toNat else o.truncToNat t
  else Config.kLo.toNat

/-- The decibel value of a halved magnitude: `(10·log10(t))·4 − 43`, not folded (R182). -/
def decibel {T : Type} (o : Num T) (t : T) : T :=
  o.fsub (o.fmul (o.fmul (o.ofInt Config.kTen) (o.flog10 t)) (o.ofInt Config.kGain)) (o.ofInt Config.kOffs)

/-- `pixel(m)`, total on every value: a halved magnitude that is not above 0 (zero, negative, NaN) gives 0 before the logarithm (R182). -/
def pixel {T : Type} (o : Num T) (m : T) : Nat :=
  let t := o.fmul m o.half
  if o.gt t (o.ofInt 0) then clampTrunc o (decibel o t) else 0

/-- `SCALE h` of a legal height, row by row: `PIX[0] = 0`, `PIX[y] = pixel(MAG[h − y])` for `y` in `[1, h − 1]` (R181). -/
def State.scaleBody (h : Nat) (s : State) : State :=
  s.setPix (s.pix.fill h (fun y => if y = 0 then 0#8 else BitVec.ofNat 8 (pixel Num.f64 (s.rdMag (h - y)))))

/-- `SCALE h` (R181). -/
def execScale (h : Nat) (s : State) : Host.Outcome State Fault Refusal :=
  if legalHeight h s.mlen then .next (s.scaleBody h) else raiseFault .eHeight (.scale h) s

end Sys2Proof.Machine
end

