-- ==== Sys2Proof/Machine/Window.lean ====
section
/-! DEFINITION. The window unit: the contents of `WROM` and the command `WIN` (40_window R120 to R124). -/

namespace Sys2Proof.Machine

/-- Coefficient `i` of the window in a number format, in the order of operations R121 fixes: `1 − cos(((2·π)·i) / 2048)`. -/
def winCoef {T : Type} (o : Num T) (i : Nat) : T :=
  o.fsub (o.ofInt 1) (o.fcos (o.fdiv (o.fmul (o.fmul (o.ofInt 2) o.pi) (o.ofInt i)) (o.ofInt Config.nMax)))

/-- `WROM[i]` (R24, R121). -/
def wrom (i : Nat) : Bits64 := winCoef Num.f64 i

/-- The windowed sample: 0 for an entry that is no number, otherwise the sample times its coefficient (R123). -/
def winSample {T : Type} (o : Num T) (x : Sample) (coef : T) : T :=
  if x.nn then o.ofInt 0 else o.fmul (o.ofInt x.v.toInt) coef

/-- `WIN 2048`: the windowed frame in `XR` (R123). -/
def State.winBody (s : State) : State :=
  s.setXr (s.xr.fill Config.nMax (fun i => winSample Num.f64 (s.rdSmp i) (wrom i)))

/-- `WIN len` (R123). -/
def execWin (len : Nat) (s : State) : Host.Outcome State Fault Refusal :=
  if legalFrame len then .next s.winBody else raiseFault .eFrameLen (.win len) s

end Sys2Proof.Machine
end

