-- ==== Sys2Proof/Machine/Control.lean ====
section
/-! DEFINITION. `NOP` and `FRAME` (44_control R222, R223). -/

namespace Sys2Proof.Machine

/-- `NOP`: nothing (R222). -/
def execNop (s : State) : Host.Outcome State Fault Refusal := .next s

/-- The per-frame pipeline: `WIN 2048`, then `MAG 2048`, then `SCALE 1024` (R223). -/
def State.frameBody (s : State) : State :=
  ((s.winBody).magBody Config.nMax).scaleBody Config.height

/-- `FRAME`: it never faults, its parts' preconditions hold (R223). -/
def execFrame (s : State) : Host.Outcome State Fault Refusal := .next s.frameBody

end Sys2Proof.Machine
end

