-- ==== Sys2Proof/Machine/Dispatch.lean ====
section
/-! DEFINITION. The dispatch of a decoded command to its meaning (44_control R221). The halted check and the decoding stand before it, in
Machine/Port.lean. -/

namespace Sys2Proof.Machine

def exec (i : Instr) (s : State) : Host.Outcome State Fault Refusal :=
  match i with
  | .nop => Sys2Proof.Machine.execNop s
  | .win len => Sys2Proof.Machine.execWin len s
  | .fft nr ni => Sys2Proof.Machine.execFft nr ni s
  | .fftr n => Sys2Proof.Machine.execFftr n s
  | .mag n => Sys2Proof.Machine.execMag n s
  | .scale h => Sys2Proof.Machine.execScale h s
  | .frame => Sys2Proof.Machine.execFrame s

end Sys2Proof.Machine
end

