-- ==== Sys2Proof/Machine/Palette.lean ====
section
/-! DEFINITION. The palette ROM (43_palette R200 to R203; the view `COL` is in Machine/Port.lean). -/

namespace Sys2Proof.Machine

/-- The green and the blue channel of entry `i`: 0 up to 100, then `floor(((i − 100)·255) / 156)` (R202). -/
def paletteGreen (i : Nat) : Nat :=
  if i ≤ Config.palKnee then 0 else (i - Config.palKnee) * Config.palMul / Config.palDiv

/-- `PROM[i]` for `i` in `[0, 255]`: red `i`, green and blue alike (R201, R202). -/
def prom (i : Intensity) : Color :=
  i ++ BitVec.ofNat 8 (paletteGreen i.toNat) ++ BitVec.ofNat 8 (paletteGreen i.toNat)

end Sys2Proof.Machine
end

