-- ==== Sys2Proof/Machine/Port.lean ====
section
/-! DEFINITION. The host port: the address map (20_memory R61), the two transactions (R63, R64), the command dispatch with its halted check
(44_control R221), and the hardware reset as a step of the host (00_scope R14). -/

namespace Sys2Proof.Machine

/-- What a cell address names (R61). -/
inductive PortCell where
  | smp (i : Nat) | xr (i : Nat) | xi (i : Nat) | mag (i : Nat) | pix (y : Nat) | col (y : Nat) | prom (i : Nat) | wrom (i : Nat)
  | cmd | status | mlen | twlen | ctrl | id | errInfo
  | reserved
  deriving DecidableEq, Repr

/-- The seven registers at `0x3800` to `0x3806`; every address above is reserved (R61). -/
def registerOf (k : Nat) : PortCell :=
  match k with
  | 0 => .cmd
  | 1 => .status
  | 2 => .mlen
  | 3 => .twlen
  | 4 => .ctrl
  | 5 => .id
  | 6 => .errInfo
  | _ => .reserved

/-- The address map (R61). -/
def cellOf (a : Addr) : PortCell :=
  let n := a.toNat
  if n < 0x0800 then .smp n
  else if n < 0x1000 then .xr (n - 0x0800)
  else if n < 0x1800 then .xi (n - 0x1000)
  else if n < 0x2000 then .mag (n - 0x1800)
  else if n < 0x2400 then .pix (n - 0x2000)
  else if n < 0x2800 then .col (n - 0x2400)
  else if n < 0x2900 then .prom (n - 0x2800)
  else if n < 0x3000 then .reserved
  else if n < 0x3800 then .wrom (n - 0x3000)
  else registerOf (n - 0x3800)

/-- The address of `CMD` (R31). -/
def cmdAddr : Addr := 0x3800#16
/-- The address of `CTRL` (R36). -/
def ctrlAddr : Addr := 0x3804#16

/-- `HostRead` of what an address names (R63): no read has a side effect, so it answers the response alone. -/
def readCell (s : State) : PortCell → Resp
  | .smp i => .data (cellOfSample (s.rdSmp i))
  | .xr i => .data (F64.enc (s.rdXr i))
  | .xi i => .data (F64.enc (s.rdXi i))
  | .mag i => .data (F64.enc (s.rdMag i))
  | .pix y => .data (cellOfIntensity (s.rdPix y))
  | .col y => .data (cellOfColor (prom (s.rdPix y)))
  | .prom i => .data (cellOfColor (prom (BitVec.ofNat 8 i)))
  | .wrom i => .data (F64.enc (wrom i))
  | .status => .data (statusWord s)
  | .mlen => .data (BitVec.ofNat 64 s.mlen)
  | .twlen => .data (BitVec.ofNat 64 s.twlen)
  | .id => .data Config.idWord
  | .errInfo => .data s.errInfo
  | .cmd => .err
  | .ctrl => .err
  | .reserved => .err

/-- `HostRead(a)` (R63). -/
def hostRead (a : Addr) (s : State) : Resp := readCell s (cellOf a)

/-- The response of the write that carried a command: `ERR` exactly when the command's rule raised a fault (R221). -/
def cmdResp (t : State) : Resp := if t.err then .err else .ok

/-- The outcome of a command with the response of its write (R221). -/
def withCmdResp : Host.Outcome State Fault Refusal → Host.Outcome (State × Resp) Fault Refusal
  | .next t => .next (t, cmdResp t)
  | .fault r => .fault r
  | .refused r => .refused r

/-- `HostWrite(CMD, d)` (R221): halted, nothing happens; an illegal word is a fault; otherwise the command is executed whole. -/
def cmdWrite (d : Cell) (s : State) : Host.Outcome (State × Resp) Fault Refusal :=
  if s.err then .next (s, .err)
  else match decode d with
    | .error _ => .next (s.latchFault .eIllCmd d, .err)
    | .ok i => withCmdResp (exec i s)

/-- `HostWrite` of `d` to what an address names (R64). Data writes are accepted whatever `STATUS.ERR` is. -/
def writeCell (d : Cell) (s : State) : PortCell → Host.Outcome (State × Resp) Fault Refusal
  | .smp i => .next (s.setSmp (s.smp.put i (sampleOfCell d)), .ok)
  | .xr i => .next (s.setXr (s.xr.put i (F64.dec d)), .ok)
  | .xi i => .next (s.setXi (s.xi.put i (F64.dec d)), .ok)
  | .mag i => .next (s.setMag (s.mag.put i (F64.dec d)), .ok)
  | .pix y => .next (s.setPix (s.pix.put y (intensityOfCell d)), .ok)
  | .mlen => if d.toNat ≤ Config.nMax then .next (s.setMlen d.toNat, .ok) else .next (s, .err)
  | .cmd => cmdWrite d s
  | .ctrl => .next (if d.getLsbD 0 then s.softReset else s, .ok)
  | .col _ => .next (s, .err)
  | .prom _ => .next (s, .err)
  | .wrom _ => .next (s, .err)
  | .status => .next (s, .err)
  | .twlen => .next (s, .err)
  | .id => .next (s, .err)
  | .errInfo => .next (s, .err)
  | .reserved => .next (s, .err)

/-- `HostWrite(a, d)` (R64). -/
def hostWrite (a : Addr) (d : Cell) (s : State) : Host.Outcome (State × Resp) Fault Refusal := writeCell d s (cellOf a)

/-- The end of a transaction, on its outcome (R62): the response is given. -/
def completeTxn : Host.Outcome (State × Resp) Fault Refusal → Host.Outcome State Fault Refusal
  | .next p => .next (p.1.complete (some p.2))
  | .fault r => .fault r
  | .refused r => .refused r

/-- One step of the host (R14). A hardware reset has no response (R310). -/
def runTxn (t : Txn) (s : State) : Host.Outcome State Fault Refusal :=
  match t with
  | .read a => .next (s.complete (some (hostRead a s)))
  | .write a d => completeTxn (hostWrite a d s)
  | .reset => .next (s.hardReset.complete none)

/-- The head of the host's list is taken off and run; with an empty list the engine is idle and holds its state (R292, R310;
assumption logs 6, 18). -/
def takeTxn (s : State) : Host.Outcome State Fault Refusal :=
  match s.port with
  | [] => .next s
  | t :: rest => runTxn t (s.setPort rest)

/-- The write that presents an instruction of `nbits` bits `w` to the engine, put before the host's other transactions. -/
def presentWord (nbits w : Nat) (s : State) : State :=
  s.setPort (.write cmdAddr (BitVec.ofNat 64 (w % 2 ^ nbits)) :: s.port)

end Sys2Proof.Machine
end

