-- ==== Sys2Proof/Machine/Step.lean ====
section
/-! DEFINITION. One step of the machine: one step of the host on the port (00_scope R14, 20_memory R62). -/

namespace Sys2Proof.Machine

/-- One step: the next transaction of the host, whole (R14, R62). -/
def step (s : State) : Host.Outcome State Fault Refusal := takeTxn s

/-- `s` with the write of that command word to `CMD` as the host's next transaction, so that the very next step executes it
(44_control R220; assumption log 7). -/
def State.withFetchWord (s : State) (nbits w : Nat) : State := presentWord nbits w s

end Sys2Proof.Machine
end

