-- ==== Sys2Proof/Machine/HostDriver.lean ====
section
/-! DEFINITION. The host: the pseudo-instructions of the script notation (30_encoding R95, R96) and DOC00's SpectrogramDriver as lists of
transactions (45_host_driver R240 to R246). The block reads nothing defined here (assumption log 17). -/

namespace Sys2Proof.Machine

/-! ### Script notation (R95, R96) -/

/-- A mnemonic line of a script: the write of its command word to `CMD`. -/
def scriptCmd (i : Instr) : Txn := .write cmdAddr (cmdData i)
/-- `SRST`: `WR CTRL, 1`. -/
def scriptSrst : Txn := .write ctrlAddr 1#64
/-- `FFTC n`: `FFT n, n`. -/
def scriptFftc (n : Nat) : Txn := scriptCmd (.fft n n)
/-- `LDS i, v`: a numeric sample. -/
def scriptLds (i : Nat) (v : Int) : Txn := .write (BitVec.ofNat 16 i) ((BitVec.ofInt 32 v).setWidth 64)
/-- `LDNN i`: a non-numeric entry. -/
def scriptLdnn (i : Nat) : Txn := .write (BitVec.ofNat 16 i) 0x0000000100000000#64
/-- `COLUMN`: `WIN 2048`, `MAG 2048`, `SCALE 1024`. -/
def scriptColumn : List Txn :=
  [scriptCmd (.win Config.nMax), scriptCmd (.mag Config.nMax), scriptCmd (.scale Config.height)]
/-- `ZEROI n`: `WR XI[i], f(0)` for `i` in `[0, n)`. -/
def scriptZeroI (n : Nat) : List Txn :=
  (List.range n).map (fun i => .write (BitVec.ofNat 16 (0x1000 + i)) (F64.enc (F64.ofInt 0)))

/-! ### The render loop (R240 to R245) -/

/-- `hopSize = floor(sampleRate / 100)` (R242). -/
def hopSize (sampleRate : Nat) : Nat := sampleRate / Config.hopDiv

/-- `gridWidth = ceil(sampleCount / hopSize)` (R242, R245). -/
def gridWidth (sampleCount hop : Nat) : Nat := (sampleCount + hop - 1) / hop

/-- `limit = sampleCount − 2048 − hopSize`, which may be zero or negative (R242). -/
def frameLimit (sampleCount hop : Nat) : Int := sampleCount - Config.nMax - hop

/-- The offsets `off, off + hop, ...` below the limit, at most `fuel` of them (R243). -/
def offsetsFrom (hop : Nat) (limit : Int) : Nat → Nat → List Nat
  | 0, _ => []
  | fuel + 1, off => if (off : Int) < limit then off :: offsetsFrom hop limit fuel (off + hop) else []

/-- The offsets the loop visits (R243): a positive hop leaves the buffer in at most `sampleCount` iterations. -/
def frameOffsets (sampleCount hop : Nat) : List Nat := offsetsFrom hop (frameLimit sampleCount hop) sampleCount 0

/-- A sample the block can take: no number, or a 32-bit one (R240). -/
def sampleFits : Option Int → Bool
  | none => true
  | some v => decide (-2 ^ 31 ≤ v) && decide (v < 2 ^ 31)

/-- The write of entry `i` of a frame (R244). -/
def loadSample (i : Nat) : Option Int → Txn
  | none => scriptLdnn i
  | some v => scriptLds i v

/-- Loading the frame at an offset into `SMP` (R244). -/
def loadFrame (samples : List (Option Int)) (off : Nat) : List Txn :=
  (List.range Config.nMax).map (fun i => loadSample i (samples.getD (off + i) none))

/-- Reading the 1024 colors of a column (R243). -/
def readColumn : List Txn := (List.range Config.height).map (fun y => .read (BitVec.ofNat 16 (0x2400 + y)))

/-- One iteration of the loop (R243). -/
def columnScript (samples : List (Option Int)) (off : Nat) : List Txn :=
  loadFrame samples off ++ scriptCmd .frame :: readColumn

/-- The whole render: a reset, then the loop (R243, R247). No move for a rate below 100 (R242, U8) or a sample wider than 32 bits (R240). -/
def renderScript (samples : List (Option Int)) (sampleRate : Nat) : Option (List Txn) :=
  if Config.hopDiv ≤ sampleRate ∧ samples.all sampleFits = true then
    some (.reset :: (frameOffsets samples.length (hopSize sampleRate)).flatMap (columnScript samples))
  else none

/-- The colors among the responses to `readColumn`. -/
def columnOf (rs : List Resp) : List Color :=
  rs.filterMap (fun r => match r with
    | .data d => some (d.setWidth 24)
    | _ => none)

/-- The filled columns of the grid, from the responses of a render, oldest first (R243): each iteration gives 2048 + 1 + 1024. -/
def gridOf : Nat → List Resp → List (List Color)
  | 0, _ => []
  | k + 1, rs =>
    columnOf ((rs.drop (Config.nMax + 1)).take Config.height) :: gridOf k (rs.drop (Config.nMax + 1 + Config.height))

/-! ### Abandoning a render (R246) -/

/-- Whether a transaction is a write to `CMD`. -/
def isCmdWrite : Txn → Bool
  | .write a _ => a == cmdAddr
  | _ => false

/-- Running a script with the host's duty to abandon it at the first `CMD` write that answers `ERR` (R246): the state reached, and whether
the script was run to its end. -/
def drive : List Txn → State → Host.Outcome (State × Bool) Fault Refusal
  | [], s => .next (s, true)
  | t :: ts, s =>
    match runTxn t s with
    | .next u => if isCmdWrite t && u.resps.head? == some .err then .next (u, false) else drive ts u
    | .fault r => .fault r
    | .refused r => .refused r

end Sys2Proof.Machine
end

