-- ==== Sys2Proof/Machine/NumReal.lean ====
section
/-! DEFINITION. The second admitted number format `NUM.real`, the exact real numbers (00_scope R10). No step of the machine uses it and it
has no bus image: it is there for statements about the mathematics of the datapath (assumption log 14). -/

namespace Sys2Proof

open Classical in
/-- `NUM.real`: every function is the exact mathematical one; there is no NaN and no infinity (R10). -/
noncomputable def Num.real : Num ℝ where
  ofInt := fun v => (v : ℝ)
  fadd := fun a b => a + b
  fsub := fun a b => a - b
  fmul := fun a b => a * b
  fdiv := fun a b => a / b
  fsqrt := Real.sqrt
  fcos := Real.cos
  fsin := Real.sin
  flog10 := fun x => Real.logb 10 x
  pi := Real.pi
  half := 1 / 2
  gt := fun a b => decide (b < a)
  ge := fun a b => decide (b ≤ a)
  truncToNat := fun v => ⌊v⌋₊

end Sys2Proof
end

