-- ==== Sys2Proof/Machine/Strict.lean ====
section
/-! DEFINITION. The second step function: `step`, but with the outcome "refused" where the spec advises a model to give a host step no meaning
so that no claim rests on it (20_memory R65, 70_reset_and_hazards R320, 93_implementation_defined U3, U10). `step` itself gives these
steps what the device does: the response `ERR` and no change, or a free value (assumption logs 1, 9). -/

namespace Sys2Proof.Machine

/-- A cell the host must not read: write-only or reserved (R61, R63). -/
def PortCell.readRefused : PortCell → Bool
  | .cmd | .ctrl | .reserved => true
  | .smp _ | .xr _ | .xi _ | .mag _ | .pix _ | .col _ | .prom _ | .wrom _ | .status | .mlen | .twlen | .id | .errInfo => false

/-- A cell the host must not write `d` to: read-only, reserved, or `MLEN` with a value above 2048 (R34, R61, R64). A `CMD` write while
halted is not one (R247). -/
def PortCell.writeRefused (d : Cell) : PortCell → Bool
  | .col _ | .prom _ | .wrom _ | .status | .twlen | .id | .errInfo | .reserved => true
  | .mlen => decide (Config.nMax < d.toNat)
  | .smp _ | .xr _ | .xi _ | .mag _ | .pix _ | .cmd | .ctrl => false

/-- An access the host must not make (R65, U10). -/
def hostErrorTxn : Txn → Bool
  | .read a => (cellOf a).readRefused
  | .write a d => (cellOf a).writeRefused d
  | .reset => false

/-- Whether a cell of the port is `CMD`. -/
def isCmd (c : PortCell) : Bool := decide (c = .cmd)

/-- Whether some cell in `[lo, hi)` holds no value. -/
def Cells.missing {α : Type} (c : Cells α) (lo hi : Nat) : Bool :=
  (List.range hi).any (fun i => decide (lo ≤ i) && (c.look i).isNone)

/-- Whether a command that does not fault consumes a cell that holds no value (R314, R320). -/
def cmdReadsUnwritten (i : Instr) (s : State) : Bool :=
  match i with
  | .nop => false
  | .win len => legalFrame len && s.smp.missing 0 Config.nMax
  | .fft nr ni => legalLen nr && decide (ni = nr) && (s.xr.missing 0 nr || s.xi.missing 0 nr)
  | .fftr n => legalLen n && s.xr.missing 0 n
  | .mag n => legalLen n && s.xr.missing 0 n
  | .scale h => legalHeight h s.mlen && s.mag.missing 1 h
  | .frame => s.smp.missing 0 Config.nMax

/-- Whether a cell of the port shows an array cell that holds no value; `COL[y]` shows `PIX[y]` (U3). -/
def PortCell.unwritten (s : State) : PortCell → Bool
  | .smp i => (s.smp.look i).isNone
  | .xr i => (s.xr.look i).isNone
  | .xi i => (s.xi.look i).isNone
  | .mag i => (s.mag.look i).isNone
  | .pix y => (s.pix.look y).isNone
  | .col y => (s.pix.look y).isNone
  | .prom _ | .wrom _ | .cmd | .status | .mlen | .twlen | .ctrl | .id | .errInfo | .reserved => false

/-- Whether a write to `CMD` of `d` executes a command that consumes a cell that holds no value. -/
def wordReadsUnwritten (d : Cell) (s : State) : Bool :=
  match decode d with
  | .ok i => !s.err && cmdReadsUnwritten i s
  | .error _ => false

/-- Whether a transaction consumes a cell that holds no value (U3). -/
def txnReadsUnwritten (t : Txn) (s : State) : Bool :=
  match t with
  | .read a => (cellOf a).unwritten s
  | .write a d => isCmd (cellOf a) && wordReadsUnwritten d s
  | .reset => false

/-- One step of the machine as the spec advises a model to take it: wrong host steps are refused (R65, R320). -/
def strictStep (s : State) : Host.Outcome State Fault Refusal :=
  match s.port with
  | [] => step s
  | t :: _ =>
    if hostErrorTxn t then .refused .hostError
    else if txnReadsUnwritten t s then .refused .unwritten
    else step s

end Sys2Proof.Machine
end

