-- ==== Sys2Proof/Safety.lean ====
section
/-! DEFINITION. What claims are stated with: the invariant of the state (10_state R39), and the words the statements of
Certificates/Slice0/Obligations.lean share. -/

namespace Sys2Proof.Machine

/-- (I1): `TWLEN` is 0 or a power of two in [2, 2048] (R39). -/
def KeyLegal (n : Nat) : Prop := n = 0 ∨ ∃ k, 1 ≤ k ∧ k ≤ 11 ∧ n = 2 ^ k

/-- (I2): the tables are the values of R143 for the key (R39). -/
def TablesMatch (s : State) : Prop :=
  ∀ k, k < s.twlen / 2 →
    s.twc.look k = some (twCos Num.f64 k s.twlen) ∧ s.tws.look k = some (twSin Num.f64 k s.twlen)

/-- (I4): with `ERR = 0` the record is empty, with `ERR = 1` the code is one of the five (R39). -/
def RecordLegal (s : State) : Prop :=
  (s.err = false → s.errCode = 0#4 ∧ s.errInfo = 0#64) ∧ (s.err = true → 1 ≤ s.errCode.toNat ∧ s.errCode.toNat ≤ 5)

/-- The invariant of every state reachable from reset (R39; (I5) and (I6) hold by the types), with the canonical form of the arrays. -/
structure State.Inv (s : State) : Prop where
  key : KeyLegal s.twlen
  tables : TablesMatch s
  mlen : s.mlen ≤ Config.nMax
  record : RecordLegal s
  memory : Memory.wf s

/-! ### Words for statements about the commands -/

/-- The legal transform lengths, listed (R141). -/
def legalLengths : List Nat := [1, 2, 4, 8, 16, 32, 64, 128, 256, 512, 1024, 2048]

/-- A write data word with one of the features that make it illegal (R94). -/
def ReservedWord (d : Cell) : Prop :=
  let op := d.extractLsb' 28 4
  let ia := d.extractLsb' 27 1
  let b := d.extractLsb' 12 12
  let a := d.extractLsb' 0 12
  d.extractLsb' 32 32 ≠ 0#32 ∨ 6#4 ≤ op ∨ d.extractLsb' 24 3 ≠ 0#3 ∨ (ia = 1#1 ∧ op ≠ 2#4) ∨ (ia = 1#1 ∧ op = 2#4 ∧ b ≠ 0#12) ∨
    (b ≠ 0#12 ∧ (op = 0#4 ∨ op = 1#4 ∨ op = 3#4 ∨ op = 4#4 ∨ op = 5#4)) ∨ (a ≠ 0#12 ∧ (op = 0#4 ∨ op = 5#4))

/-- The state after a fault of this code during the write of `d` to `CMD` (R275). -/
def faulted (code : BitVec 4) (d : Cell) (s : State) : State := { s with err := true, errCode := code, errInfo := d }

/-- Writing to `CMD` a word that spells `i` raises the fault of this code: all that changes is the record, and the write answers `ERR`. -/
def Raises (code : BitVec 4) (i : Instr) (s : State) : Prop :=
  ∀ d, decode d = .ok i → s.err = false → hostWrite cmdAddr d s = .next (faulted code d s, .err)

/-- The code the table of faults gives a command, `none` where it raises no fault (R271). -/
def tableCode (i : Instr) (mlen : Nat) : Option (BitVec 4) :=
  match i with
  | .fft nr ni => if nr ∉ legalLengths then some 1#4 else if ni ≠ nr then some 2#4 else none
  | .fftr n => if n ∉ legalLengths then some 1#4 else none
  | .mag n => if n ∉ legalLengths then some 1#4 else none
  | .win len => if len ≠ 2048 then some 3#4 else none
  | .scale h => if h < 1 ∨ 1024 < h ∨ mlen < h then some 4#4 else none
  | .nop => none
  | .frame => none

/-- A cell that got the result `y` of an operation: that result, or, where it is a NaN, some NaN (U15). -/
def Settled (v y : Bits64) : Prop := if F64.isNaN y = true then F64.isNaN v = true else v = y

/-- The same number: the same pattern, or two NaNs, which every rule treats alike (U15). -/
def SameNumber (v w : Bits64) : Prop := v = w ∨ (F64.isNaN v = true ∧ F64.isNaN w = true)

/-- The twiddle cache of `t` is that of `s` after a command of transform length `n` that did not fault (R142). -/
structure CacheAfter (n : Nat) (s t : State) : Prop where
  rebuilt : 2 ≤ n → s.twlen ≠ n →
    t.twlen = n ∧ ∀ k,
      t.twc.look k = (if k < n / 2 then some (twCos Num.f64 k n) else s.twc.look k) ∧
        t.tws.look k = (if k < n / 2 then some (twSin Num.f64 k n) else s.tws.look k)
  reused : n < 2 ∨ s.twlen = n → t.twlen = s.twlen ∧ t.twc = s.twc ∧ t.tws = s.tws

/-- The twiddle cache is as it was. -/
structure SameCache (s t : State) : Prop where
  twlen : t.twlen = s.twlen
  twc : t.twc = s.twc
  tws : t.tws = s.tws

/-- `XR` and `XI` of `t` hold the transform `y` in the cells below `n`, as it is for `n = 1`, and what they held in `s` above (R144). -/
structure TransformStored (n : Nat) (y : List (Cx Bits64)) (s t : State) : Prop where
  values : ∀ i, i < n → ∃ z v w, y[i]? = some z ∧ t.xr.look i = some v ∧ t.xi.look i = some w ∧
    Settled v z.re ∧ Settled w z.im ∧ (n = 1 → v = z.re ∧ w = z.im)
  rest : ∀ i, n ≤ i → t.xr.look i = s.xr.look i ∧ t.xi.look i = s.xi.look i

/-- What no command writes: `SMP`, and the model's own fields. -/
structure SameInputs (s t : State) : Prop where
  smp : t.smp = s.smp
  port : t.port = s.port
  resps : t.resps = s.resps
  draw : t.draw = s.draw

/-- The record of the latched fault is the same. -/
structure SameRecord (s t : State) : Prop where
  err : t.err = s.err
  errCode : t.errCode = s.errCode
  errInfo : t.errInfo = s.errInfo

/-- Two states a host cannot tell apart but by the payload of a NaN. The draw counter is left out. -/
structure SameButNaN (t u : State) : Prop where
  smp : t.smp = u.smp
  xr : ∀ i, Option.Rel SameNumber (t.xr.look i) (u.xr.look i)
  xi : ∀ i, Option.Rel SameNumber (t.xi.look i) (u.xi.look i)
  mag : ∀ i, Option.Rel SameNumber (t.mag.look i) (u.mag.look i)
  pix : t.pix = u.pix
  cache : SameCache t u
  mlen : t.mlen = u.mlen
  record : SameRecord t u
  port : t.port = u.port
  resps : t.resps = u.resps

/-- The cells of the host port whose content a command that does not fault may change (the command rules; 70_reset_and_hazards R321). A
changed `PIX[y]` is seen through `COL[y]` too (R38). -/
def storedBy (i : Instr) (c : PortCell) : Bool :=
  match i with
  | .nop => false
  | .win _ =>
    match c with
    | .xr k => decide (k < 2048)
    | _ => false
  | .fft n _ | .fftr n =>
    match c with
    | .xr k | .xi k => decide (k < n)
    | .twlen => true
    | _ => false
  | .mag n =>
    match c with
    | .xr k | .xi k | .mag k => decide (k < n)
    | .twlen | .mlen => true
    | _ => false
  | .scale h =>
    match c with
    | .pix y | .col y => decide (y < h)
    | _ => false
  | .frame =>
    match c with
    | .xr k | .xi k | .mag k => decide (k < 2048)
    | .pix y | .col y => decide (y < 1024)
    | .twlen | .mlen => true
    | _ => false

/-! ### Words for statements about numbers -/

/-- The real number a finite pattern stands for (R8). -/
noncomputable def realOf (x : Bits64) : ℝ := (F64.gridInt x : ℝ) / 2 ^ 1074

/-- `v` is the binary64 number a real result `r` rounds to, to nearest, ties to even (R8): below the overflow threshold, half a unit above
the largest finite number, the nearest finite number; at or above it an infinity; the sign is that of `r` where `r` is not 0. -/
structure RoundsTo (r : ℝ) (v : Bits64) : Prop where
  nearest : |r| < (2 ^ 54 - 1) * 2 ^ 970 → F64.isFinite v = true ∧ ∀ w, F64.isFinite w = true →
    |realOf v - r| ≤ |realOf w - r| ∧ (|realOf v - r| = |realOf w - r| → realOf w ≠ realOf v → F64.mag v % 2 = 0)
  overflow : (2 ^ 54 - 1) * 2 ^ 970 ≤ |r| → F64.isInf v = true
  sign : r ≠ 0 → (F64.neg v = true ↔ r < 0)

end Sys2Proof.Machine
end

