-- ==== Sys2Proof/Certificates/Slice0/Obligations.lean ====
section
/-! DEFINITION. The statements for the provers. Each docstring names the rules of spec/ the statement is taken from. Two things hold of all of
them: a cell that holds no value reads as a free value of Config (assumption log 1), so a statement holds whatever it is, and `F64.*` are the
operations of `NUM.f64` (00_scope R8; assumption log 4). -/

open Sys2Proof Sys2Proof.Machine

/-! ### The command words -/

/-- 30_encoding R90 to R93: the decoder reads back every operand of every command the encoder writes. -/
def Obligations.DecodeAfterEncodeIsTheCommand : Prop :=
  ∀ i : Instr, i.wf = true → decode (cmdData i) = .ok i

/-- 30_encoding R92, R93: a command has one word, and what decodes is well-formed. -/
def Obligations.EncodeAfterDecodeIsTheWord : Prop :=
  ∀ (d : Cell) (i : Instr), decode d = .ok i → i.wf = true ∧ cmdData i = d

/-- 30_encoding R93: decoding is the opcode map of R92 (`opcodeMap`), everything else is illegal, and no word matches two rows. That it reads
no state is its type. -/
def Obligations.DecodingIsTheOpcodeMap : Prop :=
  (∀ (d : Cell) (i : Instr), decode d = .ok i ↔
    d.extractLsb' 32 32 = 0#32 ∧ ∃ r ∈ opcodeMap, r.spells (d.extractLsb' 0 32) = true ∧
      i = r.opcode.command (d.extractLsb' 0 12).toNat (d.extractLsb' 12 12).toNat) ∧
  (∀ d : Cell, (∃ e, decode d = .error e) ↔
    d.extractLsb' 32 32 ≠ 0#32 ∨ ∀ r ∈ opcodeMap, r.spells (d.extractLsb' 0 32) = false) ∧
  (∀ (w : CmdWord) (r q : OpcodeRow), r ∈ opcodeMap → q ∈ opcodeMap → r.spells w = true → q.spells w = true → r = q)

/-- 30_encoding R94: a word that matches no row raises `E_ILLCMD`, the listed features are exactly what makes a word illegal, and `NOP` is the
only word that decodes to no operation. -/
def Obligations.IllegalWordsRaiseIllCmd : Prop :=
  (∀ (d : Cell) (s : State), s.err = false →
    (d.extractLsb' 32 32 ≠ 0#32 ∨ ∀ r ∈ opcodeMap, r.spells (d.extractLsb' 0 32) = false) →
      hostWrite cmdAddr d s = .next (faulted 5#4 d s, .err)) ∧
  (∀ d : Cell, ReservedWord d ↔
    d.extractLsb' 32 32 ≠ 0#32 ∨ ∀ r ∈ opcodeMap, r.spells (d.extractLsb' 0 32) = false) ∧
  (∀ d : Cell, decode d = .ok .nop ↔ d = 0#64)

/-- 30_encoding R97: the words printed there. -/
def Obligations.ExampleWordsDecodeAsPrinted : Prop :=
  decode 0x10000800#64 = .ok (.win 2048) ∧ decode 0x20008008#64 = .ok (.fft 8 8) ∧ decode 0x20004008#64 = .ok (.fft 8 4) ∧
  decode 0x28000008#64 = .ok (.fftr 8) ∧ decode 0x28000800#64 = .ok (.fftr 2048) ∧ decode 0x30000800#64 = .ok (.mag 2048) ∧
  decode 0x40000400#64 = .ok (.scale 1024) ∧ decode 0x50000000#64 = .ok .frame ∧ decode 0x00000000#64 = .ok .nop ∧
  (∀ d ∈ [0x60000000#64, 0x01000000#64, 0x38000008#64, 0x28001008#64, 0x50000001#64, 0x30001008#64],
    ∃ e, decode d = .error e)

/-! ### Dispatch and faults -/

/-- 44_control R220, 20_memory R62: a step whose transaction writes to `CMD` a word that spells `i` is `exec i`, with the response given
(`ERR` exactly when the command faulted) and the draw counter advanced (the model's own fields, assumption logs 2, 8); so is the step after
`withFetchWord`. -/
def Obligations.StepRunsTheDecodedCommand : Prop :=
  (∀ (s : State) (d : Cell) (rest : List Txn) (i : Instr), s.port = .write cmdAddr d :: rest → s.err = false → decode d = .ok i →
    ∃ t, exec i (s.setPort rest) = .next t ∧
      step s = .next { t with resps := (if t.err then Resp.err else Resp.ok) :: t.resps, draw := t.draw + 1 }) ∧
  (∀ (s : State) (nbits w : Nat) (i : Instr), s.err = false → decodeTableWord nbits w = some i →
    ∃ t, exec i s = .next t ∧ step (s.withFetchWord nbits w) =
      .next { t with resps := (if t.err then Resp.err else Resp.ok) :: t.resps, draw := t.draw + 1 })

/-- 44_control R221: a write to `CMD`, line by line: halted, illegal, faulting, executed. -/
def Obligations.CommandDispatch : Prop :=
  ∀ (s : State) (d : Cell),
    (s.err = true → hostWrite cmdAddr d s = .next (s, .err)) ∧
    (s.err = false → (∃ e, decode d = .error e) → hostWrite cmdAddr d s = .next (faulted 5#4 d s, .err)) ∧
    (s.err = false → ∀ i, decode d = .ok i → ∃ t, exec i s = .next t ∧
      ((t.err = false ∧ hostWrite cmdAddr d s = .next (t, .ok)) ∨
        ∃ code, t = faulted code d s ∧ hostWrite cmdAddr d s = .next (t, .err)))

/-- 60_exceptions R271: the five faults, what raises each, what is recorded; a command with none of the causes raises none; and no other step
raises any. -/
def Obligations.FaultTable : Prop :=
  (∀ (s : State) (d : Cell), s.err = false →
    ((∃ e, decode d = .error e) → hostWrite cmdAddr d s = .next (faulted 5#4 d s, .err)) ∧
    ∀ i, decode d = .ok i →
      (∀ code, tableCode i s.mlen = some code → hostWrite cmdAddr d s = .next (faulted code d s, .err)) ∧
      (tableCode i s.mlen = none → ∃ t, hostWrite cmdAddr d s = .next (t, .ok) ∧ SameRecord s t)) ∧
  (∀ s t : State, s.err = false → step s = .next t → t.err = true → ∃ d rest, s.port = .write cmdAddr d :: rest ∧
    ((t.errCode = 5#4 ∧ ∃ e, decode d = .error e) ∨ ∃ i, decode d = .ok i ∧ tableCode i s.mlen = some t.errCode))

/-- 60_exceptions R274: the order of the checks, with the examples printed there. -/
def Obligations.FaultPriority : Prop :=
  (∀ (s : State) (d : Cell), s.err = true → hostWrite cmdAddr d s = .next (s, .err)) ∧
  (∀ (s : State) (d : Cell), s.err = false → (∃ e, decode d = .error e) →
    hostWrite cmdAddr d s = .next (faulted 5#4 d s, .err)) ∧
  (∃ e, decode 0x38000003#64 = .error e) ∧
  (∀ (s : State) (nr ni : Nat), nr ∉ legalLengths → Raises 1#4 (.fft nr ni) s) ∧
  (∀ (s : State) (nr ni : Nat), nr ∈ legalLengths → ni ≠ nr → Raises 2#4 (.fft nr ni) s) ∧
  (∀ s : State, Raises 1#4 (.fft 6 4) s ∧ Raises 2#4 (.fft 8 6) s ∧ Raises 1#4 (.fft 6 6) s) ∧
  (∀ (s : State) (d : Cell) (i : Instr) (code : BitVec 4), s.err = false → decode d = .ok i →
    hostWrite cmdAddr d s = .next (faulted code d s, .err) →
      match i with
      | .fft _ _ => code = 1#4 ∨ code = 2#4
      | .fftr _ | .mag _ => code = 1#4
      | .win _ => code = 3#4
      | .scale _ => code = 4#4
      | .nop | .frame => False)

/-- 60_exceptions R275: fault entry, seen by the flag or by the response, latches a code and all 64 bits of the write data, changes nothing
else, answers `ERR`, and every later command is refused. -/
def Obligations.FaultEntryLatchesAndHalts : Prop :=
  ∀ (s t : State) (d : Cell) (r : Resp), s.err = false → hostWrite cmdAddr d s = .next (t, r) → t.err = true ∨ r = .err →
    r = .err ∧
    (∃ code : BitVec 4, 1 ≤ code.toNat ∧ code.toNat ≤ 5 ∧ t = { s with err := true, errCode := code, errInfo := d }) ∧
    ∀ d', hostWrite cmdAddr d' t = .next (t, .err)

/-- 60_exceptions R277: while halted a step keeps the record of the first fault, and a command changes nothing but that it is answered; only a
reset ends the halt, it clears the record and empties the cache, and the soft one keeps the buffers. The list of transactions, the
response list and the draw counter of the next state are the model's own (assumption logs 2, 6, 8). -/
def Obligations.HaltEndsOnlyByReset : Prop :=
  ∀ s t : State, s.err = true → step s = .next t →
    (t.err = true ∧ t.errCode = s.errCode ∧ t.errInfo = s.errInfo ∧
      ∀ d rest, s.port = .write cmdAddr d :: rest → t = { s with port := rest, resps := .err :: s.resps, draw := s.draw + 1 }) ∨
    ((∃ rest, s.port = .reset :: rest ∨ ∃ d, d.getLsbD 0 = true ∧ s.port = .write ctrlAddr d :: rest) ∧
      t.err = false ∧ t.errCode = 0#4 ∧ t.errInfo = 0#64 ∧ t.twlen = 0 ∧ (∀ k, t.twc.look k = none ∧ t.tws.look k = none) ∧
      ∀ d rest, s.port = .write ctrlAddr d :: rest →
        t.smp = s.smp ∧ t.xr = s.xr ∧ t.xi = s.xi ∧ t.mag = s.mag ∧ t.pix = s.pix)

/-- 10_state R23: the one flag is set by fault entry only, cleared by the resets only, blocks every command while set, and is 0 after reset;
a command that does not fault sets nothing. The list of transactions, the response list and the draw counter of the next state are the
model's own (assumption logs 2, 6, 8). -/
def Obligations.ErrorFlagIsTheOnlyFlag : Prop :=
  (∀ s t : State, step s = .next t → s.err = false → t.err = true → ∃ d rest code,
    s.port = .write cmdAddr d :: rest ∧
      t = { s with err := true, errCode := code, errInfo := d, port := rest, resps := .err :: s.resps, draw := s.draw + 1 }) ∧
  (∀ s t : State, step s = .next t → s.err = true → t.err = false →
    ∃ rest, s.port = .reset :: rest ∨ ∃ d, d.getLsbD 0 = true ∧ s.port = .write ctrlAddr d :: rest) ∧
  (∀ (s : State) (rest : List Txn),
    (s.port = .reset :: rest → ∃ t, step s = .next t ∧ t.err = false) ∧
    (∀ d, d.getLsbD 0 = true → s.port = .write ctrlAddr d :: rest → ∃ t, step s = .next t ∧ t.err = false)) ∧
  (∀ (s : State) (d : Cell), s.err = true → hostWrite cmdAddr d s = .next (s, .err)) ∧
  (∀ s : State, ∃ w, hostRead 0x3801#16 s = .data w ∧ w.getLsbD 0 = s.err) ∧
  (∀ (i : Instr) (s t : State), s.err = false → exec i s = .next t → t.err = false → SameRecord s t) ∧
  State.reset.err = false

/-- 44_control R222: `NOP` does nothing, its word is 0, and its write tells whether the engine is halted. -/
def Obligations.NopDoesNothing : Prop :=
  (∀ s : State, exec .nop s = .next s) ∧ decode 0#64 = .ok .nop ∧
  (∀ s : State, hostWrite cmdAddr 0#64 s = .next (s, if s.err then Resp.err else Resp.ok)) ∧
  hostWrite cmdAddr 0#64 State.reset = .next (State.reset, .ok) ∧ State.reset.err = false ∧ State.reset.twlen = 0 ∧
  State.reset.mlen = 0

/-! ### The window unit -/

/-- 40_window R123: `WIN`: its word, its fault, the windowed frame, and everything else as it was, the
model's own fields (assumption logs 2, 6, 8) with it. -/
def Obligations.WinWindowsTheFrame : Prop :=
  (∀ len, len < 4096 → decode (0x10000000#64 ||| BitVec.ofNat 64 len) = .ok (.win len)) ∧
  (∀ (len : Nat) (s : State), len ≠ 2048 → Raises 3#4 (.win len) s) ∧
  ∀ s : State, ∃ t, exec (.win 2048) s = .next t ∧
    (∀ i, i < 2048 → t.xr.look i = some (if (s.rdSmp i).nn = true then F64.ofInt 0
      else F64.mul (F64.ofInt (s.rdSmp i).v.toInt) (wrom i))) ∧
    (∀ i, 2048 ≤ i → t.xr.look i = s.xr.look i) ∧
    t.xi = s.xi ∧ t.mag = s.mag ∧ t.pix = s.pix ∧ t.mlen = s.mlen ∧ SameCache s t ∧ SameInputs s t ∧ SameRecord s t

/-- 10_state R24, 40_window R121, R122 with the properties of 00_scope R9: the first coefficient is +0 and every coefficient is a finite
number in [0, 2]. -/
def Obligations.WindowRomIsInRange : Prop :=
  wrom 0 = F64.zero ∧
  (∀ i, wrom i = F64.sub (F64.ofInt 1)
    (Config.math.fcos (F64.div (F64.mul (F64.mul (F64.ofInt 2) F64.pi) (F64.ofInt i)) (F64.ofInt 2048)))) ∧
  ∀ i, i < 2048 → F64.isFinite (wrom i) = true ∧ F64.ge (wrom i) (F64.ofInt 0) = true ∧ F64.ge (F64.ofInt 2) (wrom i) = true

/-- 40_window R120, R122, in `NUM.real`: the window is `1 − cos(2π·i/2048)`, 0 at 0, symmetric, in [0, 2], 2 at 1024 and nowhere else, 1 at 512
and 1536. -/
def Obligations.WindowShapeInTheReals : Prop :=
  (∀ i : Nat, winCoef Num.real i = 1 - Real.cos (2 * Real.pi * i / 2048)) ∧
  winCoef Num.real 0 = 0 ∧
  (∀ i, 0 < i → i < 2048 → winCoef Num.real i = winCoef Num.real (2048 - i)) ∧
  (∀ i, i < 2048 → 0 ≤ winCoef Num.real i ∧ winCoef Num.real i ≤ 2 ∧ (winCoef Num.real i = 2 ↔ i = 1024)) ∧
  winCoef Num.real 512 = 1 ∧ winCoef Num.real 1536 = 1

/-- 40_window R124 (a) to (f): the first cell is a zero with the sign of its sample, a sample of 0 gives a zero, a tagged entry gives +0, every
cell is finite and at most 2^32 in magnitude, and a second `WIN` changes nothing. -/
def Obligations.WinCornerCases : Prop :=
  ∀ s : State, ∃ t, exec (.win 2048) s = .next t ∧ exec (.win 2048) t = .next t ∧
    ∀ i, i < 2048 → ∃ v, t.xr.look i = some v ∧ F64.isFinite v = true ∧ F64.mag v ≤ F64.mag (F64.ofInt (2 ^ 32)) ∧
      ((s.rdSmp i).nn = true → v = F64.zero) ∧ ((s.rdSmp i).v = 0#32 → F64.isZero v = true) ∧
      (i = 0 → F64.isZero v = true ∧ ((s.rdSmp i).nn = false → F64.neg v = (s.rdSmp i).v.msb))

/-! ### The FFT engine -/

/-- 41_fft R141: the legal lengths, their two characterisations, the fault of every other length, and length 1 as the identity. -/
def Obligations.LegalLengthsAreThePowersOfTwo : Prop :=
  (∀ n, legalLen n = true ↔ n ∈ legalLengths) ∧
  (∀ n, n ∈ legalLengths ↔ 1 ≤ n ∧ n ≤ 2048 ∧ n &&& (n - 1) = 0) ∧
  (∀ n, n ∈ legalLengths ↔ ∃ k, k ≤ 11 ∧ n = 2 ^ k) ∧
  (∀ (n ni : Nat) (s : State), n ∉ legalLengths →
    Raises 1#4 (.fft n ni) s ∧ Raises 1#4 (.fftr n) s ∧ Raises 1#4 (.mag n) s) ∧
  (∀ s : State, ∃ t, exec (.fft 1 1) s = .next t ∧ t.xr.look 0 = some (s.rdXr 0) ∧ t.xi.look 0 = some (s.rdXi 0))

/-- 41_fft R142: every transform command that does not fault looks the cache up once, with its top-level length; a faulting command and the
other commands leave it alone, whether they fault or not. -/
def Obligations.TwiddleCacheRule : Prop :=
  (∀ (n : Nat) (s : State), n ∈ legalLengths →
    (∃ t, exec (.fft n n) s = .next t ∧ CacheAfter n s t) ∧ (∃ t, exec (.fftr n) s = .next t ∧ CacheAfter n s t) ∧
    (∃ t, exec (.mag n) s = .next t ∧ CacheAfter n s t)) ∧
  (∀ s : State, ∃ t, exec .frame s = .next t ∧ CacheAfter 2048 s t) ∧
  (∀ (i : Instr) (s t : State), s.err = false → exec i s = .next t → t.err = true → SameCache s t) ∧
  (∀ s : State, (∃ t, exec .nop s = .next t ∧ SameCache s t) ∧ (∀ len, ∃ t, exec (.win len) s = .next t ∧ SameCache s t) ∧
    ∀ h, ∃ t, exec (.scale h) s = .next t ∧ SameCache s t)

/-- 41_fft R143 with the properties of 00_scope R9: the table values, their order of operations, their range, the entry of index 0, and what
they are in `NUM.real`. -/
def Obligations.TwiddleTableValues : Prop :=
  (∀ k n, twCos Num.f64 k n =
      Config.math.fcos (F64.div (F64.mul (F64.mul (F64.ofInt (-2)) F64.pi) (F64.ofInt k)) (F64.ofInt n)) ∧
    twSin Num.f64 k n =
      Config.math.fsin (F64.div (F64.mul (F64.mul (F64.ofInt (-2)) F64.pi) (F64.ofInt k)) (F64.ofInt n))) ∧
  (∀ n k, n ∈ legalLengths → k < n / 2 →
    F64.isFinite (twCos Num.f64 k n) = true ∧ F64.mag (twCos Num.f64 k n) ≤ F64.mag F64.one ∧
    F64.isFinite (twSin Num.f64 k n) = true ∧ F64.mag (twSin Num.f64 k n) ≤ F64.mag F64.one) ∧
  (∀ n, n ∈ legalLengths → twTheta Num.f64 0 n = 0x8000000000000000#64 ∧ twCos Num.f64 0 n = F64.ofInt 1 ∧
    F64.isZero (twSin Num.f64 0 n) = true) ∧
  (∀ k n : Nat, twCos Num.real k n = Real.cos (2 * Real.pi * k / n) ∧ twSin Num.real k n = -Real.sin (2 * Real.pi * k / n))

/-- 41_fft R145: the recursion, in every number format: the base case, and the two outputs of butterfly `i`, cell for cell and operation for
operation, from the transforms of the even-indexed and the odd-indexed half. -/
def Obligations.ButterflyRecursion : Prop :=
  ∀ (T : Type) (o : Num T) (tw : Nat → Cx T) (big d : Nat) (x : List (Cx T)), d < big → x.length = 2 ^ (d + 1) →
    (∀ z, fftRec o tw (2 ^ big) 0 [z] = [z]) ∧
    (fftRec o tw (2 ^ big) (d + 1) x).length = 2 ^ (d + 1) ∧
    ∀ i, i < 2 ^ d → ∃ e q : Cx T,
      (fftRec o tw (2 ^ big) d ((List.range (2 ^ d)).filterMap (fun m => x[2 * m]?)))[i]? = some e ∧
      (fftRec o tw (2 ^ big) d ((List.range (2 ^ d)).filterMap (fun m => x[2 * m + 1]?)))[i]? = some q ∧
      ∃ c sn pr pi, c = (tw (i * (2 ^ big / 2 ^ (d + 1)))).re ∧ sn = (tw (i * (2 ^ big / 2 ^ (d + 1)))).im ∧
        pr = o.fsub (o.fmul c q.re) (o.fmul sn q.im) ∧ pi = o.fadd (o.fmul c q.im) (o.fmul sn q.re) ∧
        (fftRec o tw (2 ^ big) (d + 1) x)[i]? = some ⟨o.fadd e.re pr, o.fadd e.im pi⟩ ∧
        (fftRec o tw (2 ^ big) (d + 1) x)[i + 2 ^ d]? = some ⟨o.fsub e.re pr, o.fsub e.im pi⟩

/-- 41_fft R144, R145, R149: `FFT`: its word, its two faults, the transform with the table the command leaves, and everything else as it was.
That a cell's NaN has a free payload is the spec's U15 (assumption log 3). -/
def Obligations.FftTransformsInPlace : Prop :=
  (∀ nr ni, nr < 4096 → ni < 4096 →
    decode (0x20000000#64 ||| BitVec.ofNat 64 ni <<< 12 ||| BitVec.ofNat 64 nr) = .ok (.fft nr ni)) ∧
  (∀ (nr ni : Nat) (s : State), (nr ∉ legalLengths → Raises 1#4 (.fft nr ni) s) ∧
    (nr ∈ legalLengths → ni ≠ nr → Raises 2#4 (.fft nr ni) s)) ∧
  ∀ (n : Nat) (s : State), n ∈ legalLengths → ∃ t, exec (.fft n n) s = .next t ∧ CacheAfter n s t ∧
    TransformStored n (fftRec Num.f64 t.twiddle n n.log2 ((List.range n).map (fun i => ⟨s.rdXr i, s.rdXi i⟩))) s t ∧
    t.mag = s.mag ∧ t.pix = s.pix ∧ t.mlen = s.mlen ∧ SameInputs s t ∧ SameRecord s t

/-- 41_fft R148, R149: `FFTR`: its word, its fault, the transform of the real input with zero imaginary parts, and everything else as it
was. -/
def Obligations.FftrTransformsInPlace : Prop :=
  (∀ n, n < 4096 → decode (0x28000000#64 ||| BitVec.ofNat 64 n) = .ok (.fftr n)) ∧
  (∀ (n : Nat) (s : State), n ∉ legalLengths → Raises 1#4 (.fftr n) s) ∧
  ∀ (n : Nat) (s : State), n ∈ legalLengths → ∃ t, exec (.fftr n) s = .next t ∧ CacheAfter n s t ∧
    TransformStored n (fftRec Num.f64 t.twiddle n n.log2 ((List.range n).map (fun i => ⟨s.rdXr i, F64.zero⟩))) s t ∧
    t.mag = s.mag ∧ t.pix = s.pix ∧ t.mlen = s.mlen ∧ SameInputs s t ∧ SameRecord s t

/-- 41_fft R150: `MAG`: its word, its fault, the transform of the real input left in `XR` and `XI`, the magnitudes of what they then hold, the
new `MLEN`, and everything else as it was. -/
def Obligations.MagLeavesTheMagnitudes : Prop :=
  (∀ n, n < 4096 → decode (0x30000000#64 ||| BitVec.ofNat 64 n) = .ok (.mag n)) ∧
  (∀ (n : Nat) (s : State), n ∉ legalLengths → Raises 1#4 (.mag n) s) ∧
  ∀ (n : Nat) (s : State), n ∈ legalLengths → ∃ t, exec (.mag n) s = .next t ∧ CacheAfter n s t ∧
    TransformStored n (fftRec Num.f64 t.twiddle n n.log2 ((List.range n).map (fun i => ⟨s.rdXr i, F64.zero⟩))) s t ∧
    (∀ i, i < n → ∃ r im v, t.xr.look i = some r ∧ t.xi.look i = some im ∧ t.mag.look i = some v ∧
      Settled v (F64.sqrt (F64.add (F64.mul r r) (F64.mul im im)))) ∧
    (∀ i, n ≤ i → t.mag.look i = s.mag.look i) ∧
    t.mlen = n ∧ t.pix = s.pix ∧ SameInputs s t ∧ SameRecord s t

/-- 41_fft R140: in `NUM.real` the recursion with the table of its length computes the forward discrete Fourier transform with the negative
exponent, unnormalised, of every sequence whose length is a power of two. -/
def Obligations.RealTransformIsTheDft : Prop :=
  ∀ (d : Nat) (x : List (Cx ℝ)) (k : Nat), x.length = 2 ^ d → k < 2 ^ d →
    ∃ y : Cx ℝ, (fftRec Num.real (fun j => ⟨twCos Num.real j (2 ^ d), twSin Num.real j (2 ^ d)⟩) (2 ^ d) d x)[k]? = some y ∧
      (⟨y.re, y.im⟩ : ℂ) = ∑ m ∈ Finset.range (2 ^ d),
        (⟨(x.getD m ⟨0, 0⟩).re, (x.getD m ⟨0, 0⟩).im⟩ : ℂ) *
          Complex.exp (-(2 * Real.pi * Complex.I * (k : ℂ) * (m : ℂ) / ((2 ^ d : ℕ) : ℂ)))

/-- 41_fft R146: the entry a sub-level reads with the stride is, bit for bit, the entry of a table built for its own length, and in `NUM.real`
the twiddle of the level. -/
def Obligations.StrideReadsTheLevelsTwiddle : Prop :=
  (∀ a b i, 1 ≤ a → a ≤ b → b ≤ 11 → i < 2 ^ (a - 1) →
    i * (2 ^ b / 2 ^ a) < 2 ^ b / 2 ∧
    twCos Num.f64 (i * (2 ^ b / 2 ^ a)) (2 ^ b) = twCos Num.f64 i (2 ^ a) ∧
    twSin Num.f64 (i * (2 ^ b / 2 ^ a)) (2 ^ b) = twSin Num.f64 i (2 ^ a)) ∧
  (∀ a b i : Nat, a ≤ b →
    twCos Num.real (i * (2 ^ b / 2 ^ a)) (2 ^ b) = Real.cos (-2 * Real.pi * i / 2 ^ a) ∧
    twSin Num.real (i * (2 ^ b / 2 ^ a)) (2 ^ b) = Real.sin (-2 * Real.pi * i / 2 ^ a))

/-- 41_fft R151 (P1), 95_test_vectors E1, with `P-TRIG-FIN`: the spectrum of an impulse is exactly 1 in every bin. -/
def Obligations.ImpulseHasAFlatSpectrum : Prop :=
  ∀ (n : Nat) (s : State), n ∈ legalLengths → TablesMatch s → s.xr.look 0 = some F64.one →
    (∀ m, 1 ≤ m → m < n → ∃ z, s.xr.look m = some z ∧ F64.isZero z = true) →
    (∃ t, exec (.fftr n) s = .next t ∧
      ∀ k, k < n → t.xr.look k = some F64.one ∧ ∃ z, t.xi.look k = some z ∧ F64.isZero z = true) ∧
    ∃ t, exec (.mag n) s = .next t ∧ ∀ k, k < n → t.mag.look k = some F64.one

/-- 41_fft R151 (P2), 95_test_vectors E2, in `NUM.real`: a sinusoid of bin `k` and amplitude `A` (any sign) peaks at `k` and `n − k` with
`|A|·n/2` and is 0 elsewhere. -/
def Obligations.SinusoidPeaksInTheReals : Prop :=
  ∀ (d k : Nat) (amp : ℝ), 2 ≤ d → d ≤ 11 → 0 < k → k < 2 ^ d / 2 → ∀ j, j < 2 ^ d →
    ∃ y : Cx ℝ, (fftRec Num.real (fun i => ⟨twCos Num.real i (2 ^ d), twSin Num.real i (2 ^ d)⟩) (2 ^ d) d
        ((List.range (2 ^ d)).map (fun m : Nat => ⟨amp * Real.cos (2 * Real.pi * k * m / 2 ^ d), 0⟩)))[j]? = some y ∧
      magnitude Num.real y = if j = k ∨ j = 2 ^ d - k then |amp| * 2 ^ d / 2 else 0

/-- 41_fft R151 (P7), 95_test_vectors E7: what a transform leaves depends on its input cells and its length only, not on the cache it finds:
the same patterns, or two NaNs. -/
def Obligations.TransformIgnoresTheCache : Prop :=
  ∀ (n : Nat) (s u : State), n ∈ legalLengths → TablesMatch s → TablesMatch u → (∀ i, i < n → s.rdXr i = u.rdXr i) →
    ((∀ i, i < n → s.rdXi i = u.rdXi i) → ∃ t v, exec (.fft n n) s = .next t ∧ exec (.fft n n) u = .next v ∧
      ∀ i, i < n → Option.Rel SameNumber (t.xr.look i) (v.xr.look i) ∧ Option.Rel SameNumber (t.xi.look i) (v.xi.look i)) ∧
    (∃ t v, exec (.fftr n) s = .next t ∧ exec (.fftr n) u = .next v ∧
      ∀ i, i < n → Option.Rel SameNumber (t.xr.look i) (v.xr.look i) ∧ Option.Rel SameNumber (t.xi.look i) (v.xi.look i)) ∧
    (∃ t v, exec (.mag n) s = .next t ∧ exec (.mag n) u = .next v ∧
      ∀ i, i < n → Option.Rel SameNumber (t.mag.look i) (v.mag.look i) ∧
        Option.Rel SameNumber (t.xr.look i) (v.xr.look i) ∧ Option.Rel SameNumber (t.xi.look i) (v.xi.look i))

/-- 41_fft R148: `FFTR n` leaves the state that writing +0 to `XI[0..n−1]`, cell by cell, and then `FFT n, n` leaves. -/
def Obligations.FftrIsFftWithZeroImaginary : Prop :=
  ∀ (n : Nat) (s : State), n ∈ legalLengths →
    exec (.fftr n) s = exec (.fft n n) ((List.range n).foldl (fun u i => u.setXi (u.xi.put i F64.zero)) s) ∧
    ∃ t, exec (.fftr n) s = .next t

/-! ### The scaler -/

/-- 42_scale R181: `SCALE`: its word, its fault, row 0 and the inverted rows, and everything else as it was. -/
def Obligations.ScaleFillsTheColumn : Prop :=
  (∀ h, h < 4096 → decode (0x40000000#64 ||| BitVec.ofNat 64 h) = .ok (.scale h)) ∧
  (∀ (h : Nat) (s : State), h < 1 ∨ 1024 < h ∨ s.mlen < h → Raises 4#4 (.scale h) s) ∧
  ∀ (h : Nat) (s : State), 1 ≤ h → h ≤ 1024 → h ≤ s.mlen → ∃ t, exec (.scale h) s = .next t ∧
    t.pix.look 0 = some 0#8 ∧
    (∀ j, 1 ≤ j → j < h → t.pix.look (h - j) = some (BitVec.ofNat 8 (pixel Num.f64 (s.rdMag j)))) ∧
    (∀ y, h ≤ y → t.pix.look y = s.pix.look y) ∧
    t.xr = s.xr ∧ t.xi = s.xi ∧ t.mag = s.mag ∧ t.mlen = s.mlen ∧ SameCache s t ∧ SameInputs s t ∧ SameRecord s t

/-- 42_scale R183: the pixel of every number, NaNs and infinities too, is at most 255: it is what the five steps of
R182, in their order and not folded, and its two guards give, 0, 255, or an integer part that is at most 254; so every row a `SCALE` writes
holds its pixel whole. -/
def Obligations.PixelsStayInRange : Prop :=
  (∀ m : Bits64, pixel Num.f64 m ≤ 255) ∧
  (∀ m : Bits64, ∃ t1 t2 t3 t4 t5, t1 = F64.mul m F64.half ∧ t2 = Config.math.flog10 t1 ∧ t3 = F64.mul (F64.ofInt 10) t2 ∧
    t4 = F64.mul t3 (F64.ofInt 4) ∧ t5 = F64.sub t4 (F64.ofInt 43) ∧
    (F64.gt t1 (F64.ofInt 0) = false → pixel Num.f64 m = 0) ∧
    (F64.gt t1 (F64.ofInt 0) = true → F64.gt t5 (F64.ofInt 0) = false → pixel Num.f64 m = 0) ∧
    (F64.gt t1 (F64.ofInt 0) = true → F64.gt t5 (F64.ofInt 0) = true → F64.ge t5 (F64.ofInt 255) = true → pixel Num.f64 m = 255) ∧
    (F64.gt t1 (F64.ofInt 0) = true → F64.gt t5 (F64.ofInt 0) = true → F64.ge t5 (F64.ofInt 255) = false →
      pixel Num.f64 m = F64.truncToNat t5)) ∧
  (∀ t5 : Bits64, F64.gt t5 (F64.ofInt 0) = true → F64.ge t5 (F64.ofInt 255) = false → F64.truncToNat t5 ≤ 254) ∧
  (∀ (h : Nat) (s : State), 1 ≤ h → h ≤ 1024 → h ≤ s.mlen → ∃ t, exec (.scale h) s = .next t ∧
    ∀ y, y < h → ∃ p, t.pix.look y = some p ∧ p.toNat = if y = 0 then 0 else pixel Num.f64 (s.rdMag (h - y)))

/-- 42_scale R185, in `NUM.real`: the thresholds of the pixel values. -/
def Obligations.PixelThresholdsInTheReals : Prop :=
  (∀ m : ℝ, 1 ≤ pixel Num.real m ↔ 2 * (10 : ℝ) ^ (11 / 10 : ℝ) ≤ m) ∧
  (∀ m : ℝ, pixel Num.real m = 255 ↔ 2 * (10 : ℝ) ^ (149 / 20 : ℝ) ≤ m) ∧
  (∀ (m : ℝ) (p : Nat), 1 ≤ p → p ≤ 254 →
    (pixel Num.real m = p ↔ 2 * (10 : ℝ) ^ ((43 + p) / 40 : ℝ) ≤ m ∧ m < 2 * (10 : ℝ) ^ ((44 + p) / 40 : ℝ))) ∧
  (∀ m : ℝ, pixel Num.real m ≤ 255)

/-- 42_scale R184 (a) to (e), with `P-LOG-POS`: zeros, negative numbers and NaNs give 0, the smallest subnormal gives 0, +infinity gives
255. -/
def Obligations.DegenerateMagnitudesSaturate : Prop :=
  (∀ m : Bits64, F64.isZero m = true ∨ F64.neg m = true ∨ F64.isNaN m = true → pixel Num.f64 m = 0) ∧
  pixel Num.f64 0x0000000000000001#64 = 0 ∧ pixel Num.f64 F64.inf = 255

/-- 42_scale R182 with `P-LOG-MONO` (00_scope R9): a larger magnitude never gets a smaller pixel. -/
def Obligations.PixelIsMonotone : Prop :=
  ∀ a b : Bits64, F64.ge b a = true → pixel Num.f64 a ≤ pixel Num.f64 b

/-! ### The palette -/

/-- 43_palette R202: the contents of the palette ROM, the bound on green, and that the real-valued formula in binary64, truncated, agrees. -/
def Obligations.PaletteContents : Prop :=
  ∀ i : Intensity,
    (prom i).extractLsb' 16 8 = i ∧
    ((prom i).extractLsb' 8 8).toNat = (if i.toNat ≤ 100 then 0 else (i.toNat - 100) * 255 / 156) ∧
    (prom i).extractLsb' 0 8 = (prom i).extractLsb' 8 8 ∧ ((prom i).extractLsb' 8 8).toNat ≤ 253 ∧
    (101 ≤ i.toNat → F64.truncToNat (F64.mul (F64.div (F64.ofInt ((i.toNat : Int) - 100)) (F64.ofInt 156)) (F64.ofInt 255)) =
      (i.toNat - 100) * 255 / 156)

/-- 43_palette R204: the palette lookup is a read of `PROM` or `COL`; it reads the current `PIX`, cannot fail, changes nothing but that it is
answered, and both regions refuse writes. How the answer and the transaction show in the next state, and the draw counter, are the
model's own (assumption logs 2, 6, 8). -/
def Obligations.PaletteLookupIsARead : Prop :=
  (∀ (s : State) (i : Nat), i < 256 →
    hostRead (BitVec.ofNat 16 (0x2800 + i)) s = .data ((prom (BitVec.ofNat 8 i)).setWidth 64)) ∧
  (∀ (s : State) (y : Nat), y < 1024 →
    hostRead (BitVec.ofNat 16 (0x2400 + y)) s = .data ((prom (s.rdPix y)).setWidth 64)) ∧
  (∀ (s : State) (a : Addr) (rest : List Txn), s.port = .read a :: rest →
    step s = .next { s with port := rest, resps := hostRead a s :: s.resps, draw := s.draw + 1 }) ∧
  (∀ (s : State) (a : Addr) (d : Cell), 0x2400 ≤ a.toNat → a.toNat < 0x2900 → hostWrite a d s = .next (s, .err))

/-! ### The whole frame -/

/-- 44_control R223: `FRAME` is `WIN 2048`, `MAG 2048`, `SCALE 1024` one after another, never faults, and leaves `SMP` and the record. -/
def Obligations.FrameIsThreeCommands : Prop :=
  decode 0x50000000#64 = .ok .frame ∧
  ∀ s : State, ∃ a b t, exec (.win 2048) s = .next a ∧ exec (.mag 2048) a = .next b ∧ exec (.scale 1024) b = .next t ∧
    exec .frame s = .next t ∧ t.mlen = 2048 ∧ t.twlen = 2048 ∧ SameInputs s t ∧ SameRecord s t

/-- 44_control R223, 95_test_vectors E4: a frame of zeros or tagged entries gives zeros in `XR` and `MAG` and a column of zeros. -/
def Obligations.SilentFrameGivesABlackColumn : Prop :=
  ∀ s : State, TablesMatch s → (∀ i, i < 2048 → (s.rdSmp i).nn = true ∨ (s.rdSmp i).v = 0#32) →
    ∃ t, exec .frame s = .next t ∧
      (∀ i, i < 2048 → ∃ x m, t.xr.look i = some x ∧ F64.isZero x = true ∧ t.mag.look i = some m ∧ F64.isZero m = true) ∧
      ∀ y, y < 1024 → t.pix.look y = some 0#8

/-! ### The host port -/

/-- 20_memory R63: what a read of each address answers; a read changes nothing but that it is answered; the answer for a cell that holds a
value does not depend on the draw counter, so two reads of it agree. The draw counter is the model's own (assumption logs 1, 2), and so is how
the answer and the transaction show in the next state (assumption logs 6, 8). -/
def Obligations.HostReadMap : Prop :=
  (∀ s : State,
    (∀ i, i < 2048 → hostRead (BitVec.ofNat 16 i) s = .data (0#31 ++ BitVec.ofBool (s.rdSmp i).nn ++ (s.rdSmp i).v) ∧
      hostRead (BitVec.ofNat 16 (0x0800 + i)) s = .data (s.rdXr i) ∧
      hostRead (BitVec.ofNat 16 (0x1000 + i)) s = .data (s.rdXi i) ∧
      hostRead (BitVec.ofNat 16 (0x1800 + i)) s = .data (s.rdMag i) ∧
      hostRead (BitVec.ofNat 16 (0x3000 + i)) s = .data (wrom i)) ∧
    (∀ y, y < 1024 → hostRead (BitVec.ofNat 16 (0x2000 + y)) s = .data (0#56 ++ s.rdPix y) ∧
      hostRead (BitVec.ofNat 16 (0x2400 + y)) s = .data (0#40 ++ prom (s.rdPix y))) ∧
    (∀ i, i < 256 → hostRead (BitVec.ofNat 16 (0x2800 + i)) s = .data (0#40 ++ prom (BitVec.ofNat 8 i))) ∧
    hostRead 0x3801#16 s = .data (0#56 ++ s.errCode ++ 0#3 ++ BitVec.ofBool s.err) ∧
    hostRead 0x3802#16 s = .data (BitVec.ofNat 64 s.mlen) ∧ hostRead 0x3803#16 s = .data (BitVec.ofNat 64 s.twlen) ∧
    hostRead 0x3805#16 s = .data 0x0000010104000800#64 ∧ hostRead 0x3806#16 s = .data s.errInfo ∧
    hostRead 0x3800#16 s = .err ∧ hostRead 0x3804#16 s = .err ∧
    ∀ a : Addr, (0x2900 ≤ a.toNat ∧ a.toNat < 0x3000) ∨ 0x3807 ≤ a.toNat → hostRead a s = .err) ∧
  (∀ (s : State) (a : Addr) (rest : List Txn), s.port = .read a :: rest →
    step s = .next { s with port := rest, resps := hostRead a s :: s.resps, draw := s.draw + 1 }) ∧
  (∀ (s : State) (a : Addr) (k : Nat), txnReadsUnwritten (.read a) s = false → hostRead a { s with draw := k } = hostRead a s)

/-- 20_memory R64: what a write to each address does and answers, whatever `STATUS.ERR` is; a write that answers `ERR` changes nothing, but for a
`CMD` write whose command faults. -/
def Obligations.HostWriteMap : Prop :=
  (∀ (s : State) (d : Cell),
    (∀ i, i < 2048 →
      hostWrite (BitVec.ofNat 16 i) d s = .next (s.setSmp (s.smp.put i ⟨d.getLsbD 32, d.extractLsb' 0 32⟩), .ok) ∧
      hostWrite (BitVec.ofNat 16 (0x0800 + i)) d s = .next (s.setXr (s.xr.put i d), .ok) ∧
      hostWrite (BitVec.ofNat 16 (0x1000 + i)) d s = .next (s.setXi (s.xi.put i d), .ok) ∧
      hostWrite (BitVec.ofNat 16 (0x1800 + i)) d s = .next (s.setMag (s.mag.put i d), .ok)) ∧
    (∀ y, y < 1024 → hostWrite (BitVec.ofNat 16 (0x2000 + y)) d s = .next (s.setPix (s.pix.put y (d.extractLsb' 0 8)), .ok)) ∧
    hostWrite 0x3802#16 d s = (if d.toNat ≤ 2048 then .next ({ s with mlen := d.toNat }, .ok) else .next (s, .err)) ∧
    hostWrite 0x3800#16 d s = cmdWrite d s ∧
    hostWrite 0x3804#16 d s = .next (if d.getLsbD 0 then s.softReset else s, .ok) ∧
    (∀ a : Addr, (0x2400 ≤ a.toNat ∧ a.toNat < 0x3800) ∨ a = 0x3801#16 ∨ a = 0x3803#16 ∨ a = 0x3805#16 ∨ 0x3806 ≤ a.toNat →
      hostWrite a d s = .next (s, .err))) ∧
  (∀ (s t : State) (a : Addr) (d : Cell), hostWrite a d s = .next (t, .err) →
    t = s ∨ (a = 0x3800#16 ∧ s.err = false ∧ ∃ code, t = faulted code d s))

/-- 10_state R27 to R30, R38: a write to a data cell is read back there, without the bits the cell does not have, it is seen at no other
address but through `COL`, and `COL` shows the color of the new intensity. -/
def Obligations.WriteThenReadBack : Prop :=
  ∀ (s : State) (a : Addr) (d : Cell), a.toNat < 0x2400 → ∃ t, hostWrite a d s = .next (t, .ok) ∧
    hostRead a t = .data (if a.toNat < 0x0800 then d &&& 0x00000001FFFFFFFF#64
      else if a.toNat < 0x2000 then d else d &&& 0x00000000000000FF#64) ∧
    (0x2000 ≤ a.toNat → hostRead (a + 0x0400#16) t = .data ((prom (d.extractLsb' 0 8)).setWidth 64)) ∧
    (∀ b, b ≠ a → ¬(0x2000 ≤ a.toNat ∧ b = a + 0x0400#16) → hostRead b t = hostRead b s) ∧
    t.mlen = s.mlen ∧ SameCache s t ∧ SameRecord s t

/-- 10_state R32: the fields of `STATUS`, that it cannot be written, and its reset value; that the code is 0 with `ERR` 0 is taken from the
invariant of R39. -/
def Obligations.StatusRegisterFields : Prop :=
  (∀ s : State, ∃ w, hostRead 0x3801#16 s = .data w ∧ w.getLsbD 0 = s.err ∧ w.extractLsb' 4 4 = s.errCode ∧
    w.extractLsb' 1 3 = 0#3 ∧ w.extractLsb' 8 56 = 0#56) ∧
  (∀ s : State, s.Inv → s.err = false → hostRead 0x3801#16 s = .data 0#64) ∧
  (∀ (s : State) (d : Cell), hostWrite 0x3801#16 d s = .next (s, .err)) ∧
  hostRead 0x3801#16 State.reset = .data 0#64

/-- 10_state R34: `MLEN` is written by the host within its range, by `MAG` and by `FRAME`, by no other command, and is 0 after reset; SCALE asks
only that its height is at most `MLEN` and within `PIX`. -/
def Obligations.LengthRegisterWrites : Prop :=
  (∀ (s : State) (d : Cell),
    (d.toNat ≤ 2048 → hostWrite 0x3802#16 d s = .next ({ s with mlen := d.toNat }, .ok)) ∧
    (2048 < d.toNat → hostWrite 0x3802#16 d s = .next (s, .err)) ∧
    hostRead 0x3802#16 s = .data (BitVec.ofNat 64 s.mlen)) ∧
  (∀ (i : Instr) (s : State), ∃ t, exec i s = .next t ∧ t.mlen =
    match i with
    | .mag n => if n ∈ legalLengths then n else s.mlen
    | .frame => 2048
    | .nop | .win _ | .fft _ _ | .fftr _ | .scale _ => s.mlen) ∧
  (∀ (h : Nat) (s : State), 1 ≤ h → h ≤ 1024 → h ≤ s.mlen → ∃ t, exec (.scale h) s = .next t ∧ SameRecord s t) ∧
  State.reset.mlen = 0

/-! ### Reset -/

/-- 70_reset_and_hazards R311: hardware reset from any state leaves every register 0 and every cell without a value, the ROMs being constants;
so does `State.reset`; and every SCALE then faults. That the transaction is taken off the list is the model's own (assumption log 6). -/
def Obligations.HardwareReset : Prop :=
  (∀ (s : State) (rest : List Txn), s.port = .reset :: rest → ∃ t, step s = .next t ∧ t.port = rest ∧
    t.twlen = 0 ∧ t.mlen = 0 ∧ t.err = false ∧ t.errCode = 0#4 ∧ t.errInfo = 0#64 ∧
    ∀ i, t.smp.look i = none ∧ t.xr.look i = none ∧ t.xi.look i = none ∧ t.mag.look i = none ∧ t.pix.look i = none ∧
      t.twc.look i = none ∧ t.tws.look i = none) ∧
  (State.reset.twlen = 0 ∧ State.reset.mlen = 0 ∧ State.reset.err = false ∧ State.reset.errCode = 0#4 ∧
    State.reset.errInfo = 0#64 ∧
    ∀ i, State.reset.smp.look i = none ∧ State.reset.xr.look i = none ∧ State.reset.xi.look i = none ∧
      State.reset.mag.look i = none ∧ State.reset.pix.look i = none ∧ State.reset.twc.look i = none ∧
      State.reset.tws.look i = none) ∧
  (∀ (h : Nat) (s : State), s.mlen = 0 → Raises 4#4 (.scale h) s)

/-- 70_reset_and_hazards R312: a write of bit 0 to `CTRL`, accepted while halted too, clears the registers, empties the cache, and keeps the
five buffers; hardware reset is soft reset, then every buffer cell loses its value. The model's own fields stay (assumption logs 2, 6, 8,
13). -/
def Obligations.SoftResetKeepsTheBuffers : Prop :=
  (∀ (s : State) (d : Cell), d.getLsbD 0 = true → ∃ t, hostWrite ctrlAddr d s = .next (t, .ok) ∧
    t.twlen = 0 ∧ t.mlen = 0 ∧ t.err = false ∧ t.errCode = 0#4 ∧ t.errInfo = 0#64 ∧
    (∀ k, t.twc.look k = none ∧ t.tws.look k = none) ∧
    t.xr = s.xr ∧ t.xi = s.xi ∧ t.mag = s.mag ∧ t.pix = s.pix ∧ SameInputs s t) ∧
  (∀ s : State, s.hardReset = { s.softReset with smp := [], xr := [], xi := [], mag := [], pix := [] })

/-! ### The whole machine -/

/-- 70_reset_and_hazards R321, R322: on the port, a command that does not fault changes only the cells its rule stores (`storedBy`), and one
that faults changes only `STATUS` and `ERRINFO`. -/
def Obligations.CommandsChangeOnlyTheirCells : Prop :=
  (∀ (i : Instr) (s t : State), s.err = false → exec i s = .next t → t.err = false →
    ∀ a, storedBy i (cellOf a) = false → hostRead a t = hostRead a s) ∧
  (∀ (i : Instr) (s t : State), s.err = false → exec i s = .next t → t.err = true →
    ∀ a, a ≠ 0x3801#16 → a ≠ 0x3806#16 → hostRead a t = hostRead a s)

/-- 10_state R39: every step keeps the invariant: the key of the cache, its tables, `MLEN`, the record of the fault, and the canonical form of
the arrays (the last is the model's own, assumption log 11). -/
def Obligations.EveryStepKeepsTheInvariant : Prop :=
  ∀ s t : State, s.Inv → step s = .next t → t.Inv

/-- 10_state R39: the invariant holds after reset. -/
def Obligations.ResetMeetsTheInvariant : Prop :=
  State.reset.Inv

/-- 60_exceptions R272, 70_reset_and_hazards R330: every command and every step ends, in a next state; a step takes one transaction and gives
its response. -/
def Obligations.EveryStepAnswers : Prop :=
  (∀ (i : Instr) (s : State), ∃ t, exec i s = .next t) ∧
  (∀ (s : State) (x : Txn) (rest : List Txn), s.port = x :: rest → ∃ t, step s = .next t ∧ t.port = rest ∧ t.draw = s.draw + 1 ∧
    if x = .reset then t.resps = s.resps else ∃ r, t.resps = r :: s.resps)

/-- 20_memory R65, 70_reset_and_hazards R320, 93_implementation_defined U3, U10 (assumption logs 1, 9): the strict step refuses a host error
exactly where the response is `ERR` and the access is no write to `CMD`; a read exactly where its cell holds no value; an executed command
exactly where a cell its rule reads holds none; and otherwise it is the step, for every command that faults, is illegal or is refused while
halted too. -/
def Obligations.StrictStepRefusesHostErrors : Prop :=
  (∀ (s : State) (x : Txn) (rest : List Txn), s.port = x :: rest →
    (strictStep s = .refused .hostError ↔ isCmdWrite x = false ∧ ∃ t, step s = .next t ∧ t.resps = .err :: s.resps) ∧
    (hostErrorTxn x = false → txnReadsUnwritten x s = false → strictStep s = step s)) ∧
  (∀ s : State, s.port = [] → strictStep s = step s) ∧
  (∀ s t : State, strictStep s = .next t → step s = .next t) ∧
  (∀ (s : State) (i : Nat) (rest : List Txn), i < 2048 →
    (s.port = .read (BitVec.ofNat 16 i) :: rest → (strictStep s = .refused .unwritten ↔ s.smp.look i = none)) ∧
    (s.port = .read (BitVec.ofNat 16 (0x0800 + i)) :: rest → (strictStep s = .refused .unwritten ↔ s.xr.look i = none)) ∧
    (s.port = .read (BitVec.ofNat 16 (0x1000 + i)) :: rest → (strictStep s = .refused .unwritten ↔ s.xi.look i = none)) ∧
    (s.port = .read (BitVec.ofNat 16 (0x1800 + i)) :: rest → (strictStep s = .refused .unwritten ↔ s.mag.look i = none))) ∧
  (∀ (s : State) (y : Nat) (rest : List Txn), y < 1024 →
    (s.port = .read (BitVec.ofNat 16 (0x2000 + y)) :: rest → (strictStep s = .refused .unwritten ↔ s.pix.look y = none)) ∧
    (s.port = .read (BitVec.ofNat 16 (0x2400 + y)) :: rest → (strictStep s = .refused .unwritten ↔ s.pix.look y = none))) ∧
  (∀ (s : State) (d : Cell) (rest : List Txn), s.port = .write cmdAddr d :: rest →
    (s.err = true ∨ (∃ e, decode d = .error e) → strictStep s = step s) ∧
    ∀ c, s.err = false → decode d = .ok c →
      (c = .nop ∨ tableCode c s.mlen ≠ none → strictStep s = step s) ∧
      (c = .win 2048 ∨ c = .frame → (strictStep s = .refused .unwritten ↔ ∃ i, i < 2048 ∧ s.smp.look i = none)) ∧
      (∀ n, n ∈ legalLengths → c = .fft n n →
        (strictStep s = .refused .unwritten ↔ ∃ i, i < n ∧ (s.xr.look i = none ∨ s.xi.look i = none))) ∧
      (∀ n, n ∈ legalLengths → c = .fftr n ∨ c = .mag n →
        (strictStep s = .refused .unwritten ↔ ∃ i, i < n ∧ s.xr.look i = none)) ∧
      (∀ h, 1 ≤ h → h ≤ 1024 → h ≤ s.mlen → c = .scale h →
        (strictStep s = .refused .unwritten ↔ ∃ j, 1 ≤ j ∧ j < h ∧ s.mag.look j = none)))

/-- 93_implementation_defined U3, U15: a strict step uses no free value but for the payloads of the NaNs it computes: from a state of the invariant,
with another draw counter it goes on as well and leaves the same state, but for those payloads (assumption logs 1, 2, 3). -/
def Obligations.StrictStepUsesNoFreeValueButNaNPayloads : Prop :=
  ∀ (s t : State) (k : Nat), s.Inv → strictStep s = .next t →
    ∃ u, strictStep { s with draw := k } = .next u ∧ SameButNaN t u

/-- 60_exceptions R296: the column a `FRAME` leaves, and the colors read from it, depend on the frame alone, not on the instance or on what it
did before. -/
def Obligations.ColumnDependsOnTheFrameAlone : Prop :=
  ∀ s u : State, s.Inv → u.Inv → (∀ i, i < 2048 → s.rdSmp i = u.rdSmp i) →
    ∃ t v, exec .frame s = .next t ∧ exec .frame u = .next v ∧
      ∀ y, y < 1024 → t.pix.look y = v.pix.look y ∧
        hostRead (BitVec.ofNat 16 (0x2400 + y)) t = hostRead (BitVec.ofNat 16 (0x2400 + y)) v

/-! ### The number format -/

/-- 00_scope R8 (from general knowledge, assumption log 4): the one rounding every operation ends with answers the magnitude nearest to the
exact quotient, ties to even, infinity from half a unit above the largest finite magnitude on. -/
def Obligations.RoundingIsToNearestEven : Prop :=
  ∀ num den : Nat, 0 < den →
    (F64.roundMag num den = F64.infMag ↔ (2 ^ 54 - 1) * 2 ^ 2044 * den ≤ num) ∧
    (num < (2 ^ 54 - 1) * 2 ^ 2044 * den → ∀ m, m < F64.infMag →
      |(F64.grid (F64.ofMag false (F64.roundMag num den)) * den : Int) - num| ≤ |(F64.grid (F64.ofMag false m) * den : Int) - num| ∧
      (|(F64.grid (F64.ofMag false (F64.roundMag num den)) * den : Int) - num| =
          |(F64.grid (F64.ofMag false m) * den : Int) - num| →
        m ≠ F64.roundMag num den → F64.roundMag num den % 2 = 0))

/-- 00_scope R7, R8 (from general knowledge, assumption log 4): on finite operands every arithmetic operation answers the number the exact
real result rounds to, and a zero result has the sign IEEE 754 gives it. -/
def Obligations.ArithmeticIsCorrectlyRounded : Prop :=
  (∀ v : Int, RoundsTo v (F64.ofInt v)) ∧
  (∀ a b : Bits64, F64.isFinite a = true → F64.isFinite b = true →
    RoundsTo (realOf a + realOf b) (F64.add a b) ∧ RoundsTo (realOf a - realOf b) (F64.sub a b) ∧
    RoundsTo (realOf a * realOf b) (F64.mul a b) ∧
    (F64.isZero b = false → RoundsTo (realOf a / realOf b) (F64.div a b)) ∧
    (realOf a + realOf b = 0 → F64.neg (F64.add a b) = (F64.neg a && F64.neg b)) ∧
    (realOf a - realOf b = 0 → F64.neg (F64.sub a b) = (F64.neg a && !F64.neg b)) ∧
    F64.neg (F64.mul a b) = (F64.neg a != F64.neg b) ∧
    (F64.isZero b = false → F64.neg (F64.div a b) = (F64.neg a != F64.neg b))) ∧
  (∀ a : Bits64, F64.isFinite a = true → F64.neg a = false → RoundsTo (Real.sqrt (realOf a)) (F64.sqrt a)) ∧
  (∀ a : Bits64, F64.isZero a = true → F64.sqrt a = a)

/-- 00_scope R7, R8: the comparisons are those of the real numbers, false on a NaN; the truncation is the integer part; a NaN operand makes
every arithmetic operation answer a NaN, the square root too. -/
def Obligations.ComparisonsFollowTheReals : Prop :=
  (∀ a b : Bits64, F64.isFinite a = true → F64.isFinite b = true →
    (F64.gt a b = true ↔ realOf b < realOf a) ∧ (F64.ge a b = true ↔ realOf b ≤ realOf a)) ∧
  (∀ a b : Bits64, F64.isNaN a = true ∨ F64.isNaN b = true → F64.gt a b = false ∧ F64.ge a b = false ∧
    F64.isNaN (F64.add a b) = true ∧ F64.isNaN (F64.sub a b) = true ∧ F64.isNaN (F64.mul a b) = true ∧
    F64.isNaN (F64.div a b) = true) ∧
  (∀ a : Bits64, F64.isNaN a = true → F64.isNaN (F64.sqrt a) = true) ∧
  (∀ v : Bits64, F64.gt v (F64.ofInt 0) = true → F64.ge v (F64.ofInt 255) = false → F64.truncToNat v = ⌊realOf v⌋₊)

/-- 00_scope R8 (from general knowledge, assumption log 4): what IEEE 754 gives for infinite operands, a division by a zero, and the root of a
negative number or of an infinity. -/
def Obligations.InfinitiesAndInvalidOperands : Prop :=
  (∀ a b : Bits64, F64.isInf a = true → F64.isFinite b = true →
    F64.add a b = a ∧ F64.add b a = a ∧ F64.sub a b = a ∧ F64.sub b a = F64.negate a ∧
    (F64.isInf (F64.div a b) = true ∧ F64.neg (F64.div a b) = (F64.neg a != F64.neg b)) ∧
    (F64.isZero (F64.div b a) = true ∧ F64.neg (F64.div b a) = (F64.neg a != F64.neg b)) ∧
    (F64.isZero b = true → F64.isNaN (F64.mul a b) = true ∧ F64.isNaN (F64.mul b a) = true)) ∧
  (∀ a b : Bits64, F64.isInf a = true → F64.isInf b = true →
    (F64.neg a = F64.neg b → F64.add a b = a ∧ F64.isNaN (F64.sub a b) = true) ∧
    (F64.neg a ≠ F64.neg b → F64.isNaN (F64.add a b) = true ∧ F64.sub a b = a) ∧ F64.isNaN (F64.div a b) = true) ∧
  (∀ a b : Bits64, F64.isInf a = true → F64.isNaN b = false → F64.isZero b = false →
    F64.isInf (F64.mul a b) = true ∧ F64.isInf (F64.mul b a) = true ∧
    F64.neg (F64.mul a b) = (F64.neg a != F64.neg b) ∧ F64.neg (F64.mul b a) = (F64.neg a != F64.neg b)) ∧
  (∀ a b : Bits64, F64.isFinite a = true → F64.isZero b = true →
    (F64.isZero a = false → F64.isInf (F64.div a b) = true ∧ F64.neg (F64.div a b) = (F64.neg a != F64.neg b)) ∧
    (F64.isZero a = true → F64.isNaN (F64.div a b) = true)) ∧
  (∀ a : Bits64, F64.isNaN a = false → F64.isZero a = false → F64.neg a = true → F64.isNaN (F64.sqrt a) = true) ∧
  F64.sqrt F64.inf = F64.inf ∧
  (∀ a : Bits64, F64.isFinite a = true → F64.gt F64.inf a = true ∧ F64.gt a (F64.negate F64.inf) = true ∧
    F64.ge F64.inf a = true ∧ F64.ge a F64.inf = false)

/-! ### The host -/

/-- 45_host_driver R242 to R245: the offsets the render loop visits are the multiples of the hop below the limit, as many as the rule counts,
fewer than the grid is wide; every sample a frame reads is inside the buffer; DOC00's worked example. -/
def Obligations.RenderOffsetsAreTheSpecs : Prop :=
  (∀ count hop : Nat, 1 ≤ hop →
    frameOffsets count hop =
      (List.range (((count : Int) - 2048 - hop + hop - 1) / hop).toNat).map (fun x => x * hop) ∧
    (∀ off, off ∈ frameOffsets count hop ↔ hop ∣ off ∧ (off : Int) < (count : Int) - 2048 - hop) ∧
    (∀ off, off ∈ frameOffsets count hop → off + 2047 < count) ∧
    gridWidth count hop = ⌈(count : ℚ) / (hop : ℚ)⌉₊ ∧
    (0 < count → (frameOffsets count hop).length < gridWidth count hop)) ∧
  (frameOffsets 44100 441).length = 95 ∧ gridWidth 44100 441 = 100 ∧ hopSize 44100 = 441

/-- 45_host_driver R246: the render loop on a block it resets first runs to its end: no command faults, and every transaction after the reset
is answered. -/
def Obligations.RenderNeverFaults : Prop :=
  ∀ (samples : List (Option Int)) (rate : Nat) (script : List Txn) (s : State), renderScript samples rate = some script →
    ∃ t, drive script s = .next (t, true) ∧ t.err = false ∧
      t.resps.length = s.resps.length + (frameOffsets samples.length (hopSize rate)).length * (2048 + 1 + 1024)
end

