-- ==== Sys2Proof/Laws/Cells.lean ====
section
/-! SUPPORT. The laws of cell lists: a read after a write, what a write leaves alone, and that every write keeps the canonical form. -/

namespace Sys2Proof.Machine

variable {α : Type}

@[simp] theorem Cells.look_nil (i : Nat) : Cells.look ([] : Cells α) i = none := rfl

theorem Cells.look_cons (k : Nat) (v : α) (c : Cells α) (i : Nat) :
    Cells.look ((k, v) :: c) i = if k = i then some v else Cells.look c i := rfl

theorem Cells.look_append (a b : Cells α) (i : Nat) :
    Cells.look (a ++ b) i = (Cells.look a i).or (Cells.look b i) := by
  induction a with
  | nil => simp
  | cons e a ih =>
    obtain ⟨k, v⟩ := e
    simp only [List.cons_append, Cells.look_cons, ih]
    split <;> simp

/-- Keeping the cells whose index has a property keeps exactly their values. -/
theorem Cells.look_filter (p : Nat → Bool) (c : Cells α) (i : Nat) :
    Cells.look (c.filter (fun e => p e.1)) i = if p i then Cells.look c i else none := by
  induction c with
  | nil => simp
  | cons e c ih =>
    obtain ⟨k, v⟩ := e
    simp only [List.filter_cons, Cells.look_cons]
    by_cases hk : k = i
    · subst hk
      cases hp : p k <;> simp [hp, Cells.look_cons, ih]
    · cases hp : p k <;> simp [hk, Cells.look_cons, ih]

theorem Cells.look_range_map (f : Nat → α) (n i : Nat) :
    Cells.look ((List.range n).map (fun k => (k, f k))) i = if i < n then some (f i) else none := by
  induction n with
  | zero => simp
  | succ n ih =>
    rw [List.range_succ, List.map_append, Cells.look_append, ih]
    simp only [List.map_cons, List.map_nil, Cells.look_cons, Cells.look_nil]
    by_cases h : i < n
    · simp [h, Nat.lt_succ_of_lt h]
    · by_cases h2 : n = i
      · subst h2; simp
      · have : ¬ i < n + 1 := by omega
        simp [h, h2, this]

/-- A read after `A[i] <- v`. -/
@[simp] theorem Cells.look_put (c : Cells α) (i : Nat) (v : α) (j : Nat) :
    (c.put i v).look j = if j = i then some v else c.look j := by
  simp only [Cells.put, Cells.look_append, Cells.look_filter (fun k => decide (k < i)), Cells.look_cons,
    Cells.look_filter (fun k => decide (i < k))]
  by_cases h : j = i
  · subst h; simp
  · rcases Nat.lt_or_gt_of_ne h with h1 | h1
    · have : ¬ i < j := by omega
      simp [h1, h, this]
      cases c.look j <;> simp [Ne.symm h]
    · have : ¬ j < i := by omega
      simp [h1, h, this, Ne.symm h]

/-- A read after `for i in [0, n): A[i] <- f(i)`. -/
@[simp] theorem Cells.look_fill (c : Cells α) (n : Nat) (f : Nat → α) (j : Nat) :
    (c.fill n f).look j = if j < n then some (f j) else c.look j := by
  simp only [Cells.fill, Cells.look_append, Cells.look_range_map, Cells.look_filter (fun k => decide (n ≤ k))]
  by_cases h : j < n
  · simp [h]
  · simp [h, Nat.le_of_not_lt h]

/-- A put does not change the cells below its index. -/
theorem Cells.filter_put_lt (c : Cells α) (i : Nat) (v : α) :
    (c.put i v).filter (fun e => decide (e.1 < i)) = c.filter (fun e => decide (e.1 < i)) := by
  simp only [Cells.put, List.filter_append, List.filter_filter, List.filter_cons, lt_self_iff_false, decide_false,
    Bool.false_eq_true, if_false]
  have h1 : c.filter (fun e => decide (e.1 < i) && decide (i < e.1)) = [] := by
    apply List.filter_eq_nil_iff.mpr
    intro e _
    simp; omega
  simp [h1]

/-- Two fills of one prefix leave the second. -/
theorem Cells.fill_fill (c : Cells α) (n : Nat) (f g : Nat → α) : (c.fill n f).fill n g = c.fill n g := by
  simp only [Cells.fill, List.filter_append, List.filter_filter, Bool.and_self]
  have h1 : ((List.range n).map (fun i => (i, f i))).filter (fun e => decide (n ≤ e.1)) = [] := by
    apply List.filter_eq_nil_iff.mpr
    intro e he
    obtain ⟨i, hi, rfl⟩ := List.mem_map.mp he
    have := List.mem_range.mp hi
    simp; omega
  simp [h1]

/-- Filling no cell leaves the array. -/
theorem Cells.fill_zero (c : Cells α) (f : Nat → α) : c.fill 0 f = c := by simp [Cells.fill]

/-! ### The canonical form -/

theorem Cells.wf_nil (size : Nat) : Cells.wf size ([] : Cells α) := by simp [Cells.wf]

/-- `A[i] <- v` keeps the canonical form, for an index inside the array. -/
theorem Cells.wf_put {size : Nat} {c : Cells α} (h : Cells.wf size c) {i : Nat} (hi : i < size) (v : α) :
    Cells.wf size (c.put i v) := by
  obtain ⟨hp, hb⟩ := h
  refine ⟨?_, ?_⟩
  · refine List.pairwise_append.mpr ⟨hp.filter _, List.pairwise_cons.mpr ⟨?_, hp.filter _⟩, ?_⟩
    · intro e he
      simpa using (List.mem_filter.mp he).2
    · intro x hx y hy
      have hx' : x.1 < i := by simpa using (List.mem_filter.mp hx).2
      rcases List.mem_cons.mp hy with rfl | hy
      · exact hx'
      · have : i < y.1 := by simpa using (List.mem_filter.mp hy).2
        omega
  · intro e he
    rcases List.mem_append.mp he with he | he
    · exact hb e (List.mem_filter.mp he).1
    · rcases List.mem_cons.mp he with rfl | he
      · exact hi
      · exact hb e (List.mem_filter.mp he).1

/-- A fill keeps the canonical form, for a prefix inside the array. -/
theorem Cells.wf_fill {size : Nat} {c : Cells α} (h : Cells.wf size c) {n : Nat} (hn : n ≤ size) (f : Nat → α) :
    Cells.wf size (c.fill n f) := by
  obtain ⟨hp, hb⟩ := h
  refine ⟨?_, ?_⟩
  · refine List.pairwise_append.mpr ⟨?_, hp.filter _, ?_⟩
    · rw [List.pairwise_map]
      exact List.pairwise_lt_range
    · intro x hx y hy
      obtain ⟨i, hi, rfl⟩ := List.mem_map.mp hx
      have h1 := List.mem_range.mp hi
      have h2 : n ≤ y.1 := by simpa using (List.mem_filter.mp hy).2
      exact lt_of_lt_of_le h1 h2
  · intro e he
    rcases List.mem_append.mp he with he | he
    · obtain ⟨i, hi, rfl⟩ := List.mem_map.mp he
      exact lt_of_lt_of_le (List.mem_range.mp hi) hn
    · exact hb e (List.mem_filter.mp he).1

/-- In canonical form, equal contents are equal lists. -/
theorem Cells.eq_of_look_eq {size size' : Nat} {a b : Cells α} (ha : Cells.wf size a) (hb : Cells.wf size' b)
    (h : ∀ i, a.look i = b.look i) : a = b := by
  induction a generalizing b with
  | nil =>
    cases b with
    | nil => rfl
    | cons e b =>
      have := h e.1
      rw [Cells.look_cons e.1 e.2 b, if_pos rfl] at this
      simp at this
  | cons e a ih =>
    obtain ⟨k, v⟩ := e
    cases b with
    | nil =>
      have := h k
      simp [Cells.look_cons] at this
    | cons e' b =>
      obtain ⟨k', v'⟩ := e'
      obtain ⟨hpa, hba⟩ := ha
      obtain ⟨hpb, hbb⟩ := hb
      have la : ∀ c : Cells α, ∀ j, (∀ x ∈ c, j < x.1) → c.look j = none := by
        intro c j hc
        induction c with
        | nil => rfl
        | cons x c ihc =>
          obtain ⟨m, w⟩ := x
          have h1 : j < m := hc (m, w) List.mem_cons_self
          rw [Cells.look_cons, if_neg (by omega)]
          exact ihc (fun x hx => hc x (List.mem_cons_of_mem _ hx))
      have hka := (List.pairwise_cons.mp hpa).1
      have hkb := (List.pairwise_cons.mp hpb).1
      have hk : k = k' := by
        rcases Nat.lt_trichotomy k k' with hlt | heq | hgt
        · have := h k
          rw [Cells.look_cons, if_pos rfl, la ((k', v') :: b) k] at this
          · simp at this
          · intro x hx
            rcases List.mem_cons.mp hx with rfl | hx
            · exact hlt
            · exact lt_trans hlt (hkb x hx)
        · exact heq
        · have := h k'
          rw [la ((k, v) :: a) k', Cells.look_cons, if_pos rfl] at this
          · simp at this
          · intro x hx
            rcases List.mem_cons.mp hx with rfl | hx
            · exact hgt
            · exact lt_trans hgt (hka x hx)
      subst hk
      have hv : v = v' := by
        have := h k
        simpa [Cells.look_cons] using this
      subst hv
      congr 1
      refine ih ⟨(List.pairwise_cons.mp hpa).2, fun e he => hba e (List.mem_cons_of_mem _ he)⟩
        ⟨(List.pairwise_cons.mp hpb).2, fun e he => hbb e (List.mem_cons_of_mem _ he)⟩ ?_
      intro i
      by_cases hi : k = i
      · subst hi
        rw [la a k hka, la b k hkb]
      · have := h i
        simpa [Cells.look_cons, hi] using this

end Sys2Proof.Machine
end

