-- ==== Sys2Proof/Laws/State.lean ====
section
/-! SUPPORT. One lemma per field per named update of State, so that no proof unfolds a record update. -/

namespace Sys2Proof.Machine

variable (s : State)

/-! ### setSmp -/

@[simp] theorem State.setSmp_smp (c : Cells Sample) : (s.setSmp c).smp = c := rfl
@[simp] theorem State.setSmp_xr (c : Cells Sample) : (s.setSmp c).xr = s.xr := rfl
@[simp] theorem State.setSmp_xi (c : Cells Sample) : (s.setSmp c).xi = s.xi := rfl
@[simp] theorem State.setSmp_mag (c : Cells Sample) : (s.setSmp c).mag = s.mag := rfl
@[simp] theorem State.setSmp_pix (c : Cells Sample) : (s.setSmp c).pix = s.pix := rfl
@[simp] theorem State.setSmp_twlen (c : Cells Sample) : (s.setSmp c).twlen = s.twlen := rfl
@[simp] theorem State.setSmp_twc (c : Cells Sample) : (s.setSmp c).twc = s.twc := rfl
@[simp] theorem State.setSmp_tws (c : Cells Sample) : (s.setSmp c).tws = s.tws := rfl
@[simp] theorem State.setSmp_mlen (c : Cells Sample) : (s.setSmp c).mlen = s.mlen := rfl
@[simp] theorem State.setSmp_err (c : Cells Sample) : (s.setSmp c).err = s.err := rfl
@[simp] theorem State.setSmp_errCode (c : Cells Sample) : (s.setSmp c).errCode = s.errCode := rfl
@[simp] theorem State.setSmp_errInfo (c : Cells Sample) : (s.setSmp c).errInfo = s.errInfo := rfl
@[simp] theorem State.setSmp_port (c : Cells Sample) : (s.setSmp c).port = s.port := rfl
@[simp] theorem State.setSmp_resps (c : Cells Sample) : (s.setSmp c).resps = s.resps := rfl
@[simp] theorem State.setSmp_draw (c : Cells Sample) : (s.setSmp c).draw = s.draw := rfl

/-! ### setXr -/

@[simp] theorem State.setXr_smp (c : Cells Bits64) : (s.setXr c).smp = s.smp := rfl
@[simp] theorem State.setXr_xr (c : Cells Bits64) : (s.setXr c).xr = c := rfl
@[simp] theorem State.setXr_xi (c : Cells Bits64) : (s.setXr c).xi = s.xi := rfl
@[simp] theorem State.setXr_mag (c : Cells Bits64) : (s.setXr c).mag = s.mag := rfl
@[simp] theorem State.setXr_pix (c : Cells Bits64) : (s.setXr c).pix = s.pix := rfl
@[simp] theorem State.setXr_twlen (c : Cells Bits64) : (s.setXr c).twlen = s.twlen := rfl
@[simp] theorem State.setXr_twc (c : Cells Bits64) : (s.setXr c).twc = s.twc := rfl
@[simp] theorem State.setXr_tws (c : Cells Bits64) : (s.setXr c).tws = s.tws := rfl
@[simp] theorem State.setXr_mlen (c : Cells Bits64) : (s.setXr c).mlen = s.mlen := rfl
@[simp] theorem State.setXr_err (c : Cells Bits64) : (s.setXr c).err = s.err := rfl
@[simp] theorem State.setXr_errCode (c : Cells Bits64) : (s.setXr c).errCode = s.errCode := rfl
@[simp] theorem State.setXr_errInfo (c : Cells Bits64) : (s.setXr c).errInfo = s.errInfo := rfl
@[simp] theorem State.setXr_port (c : Cells Bits64) : (s.setXr c).port = s.port := rfl
@[simp] theorem State.setXr_resps (c : Cells Bits64) : (s.setXr c).resps = s.resps := rfl
@[simp] theorem State.setXr_draw (c : Cells Bits64) : (s.setXr c).draw = s.draw := rfl

/-! ### setXi -/

@[simp] theorem State.setXi_smp (c : Cells Bits64) : (s.setXi c).smp = s.smp := rfl
@[simp] theorem State.setXi_xr (c : Cells Bits64) : (s.setXi c).xr = s.xr := rfl
@[simp] theorem State.setXi_xi (c : Cells Bits64) : (s.setXi c).xi = c := rfl
@[simp] theorem State.setXi_mag (c : Cells Bits64) : (s.setXi c).mag = s.mag := rfl
@[simp] theorem State.setXi_pix (c : Cells Bits64) : (s.setXi c).pix = s.pix := rfl
@[simp] theorem State.setXi_twlen (c : Cells Bits64) : (s.setXi c).twlen = s.twlen := rfl
@[simp] theorem State.setXi_twc (c : Cells Bits64) : (s.setXi c).twc = s.twc := rfl
@[simp] theorem State.setXi_tws (c : Cells Bits64) : (s.setXi c).tws = s.tws := rfl
@[simp] theorem State.setXi_mlen (c : Cells Bits64) : (s.setXi c).mlen = s.mlen := rfl
@[simp] theorem State.setXi_err (c : Cells Bits64) : (s.setXi c).err = s.err := rfl
@[simp] theorem State.setXi_errCode (c : Cells Bits64) : (s.setXi c).errCode = s.errCode := rfl
@[simp] theorem State.setXi_errInfo (c : Cells Bits64) : (s.setXi c).errInfo = s.errInfo := rfl
@[simp] theorem State.setXi_port (c : Cells Bits64) : (s.setXi c).port = s.port := rfl
@[simp] theorem State.setXi_resps (c : Cells Bits64) : (s.setXi c).resps = s.resps := rfl
@[simp] theorem State.setXi_draw (c : Cells Bits64) : (s.setXi c).draw = s.draw := rfl

/-! ### setMag -/

@[simp] theorem State.setMag_smp (c : Cells Bits64) : (s.setMag c).smp = s.smp := rfl
@[simp] theorem State.setMag_xr (c : Cells Bits64) : (s.setMag c).xr = s.xr := rfl
@[simp] theorem State.setMag_xi (c : Cells Bits64) : (s.setMag c).xi = s.xi := rfl
@[simp] theorem State.setMag_mag (c : Cells Bits64) : (s.setMag c).mag = c := rfl
@[simp] theorem State.setMag_pix (c : Cells Bits64) : (s.setMag c).pix = s.pix := rfl
@[simp] theorem State.setMag_twlen (c : Cells Bits64) : (s.setMag c).twlen = s.twlen := rfl
@[simp] theorem State.setMag_twc (c : Cells Bits64) : (s.setMag c).twc = s.twc := rfl
@[simp] theorem State.setMag_tws (c : Cells Bits64) : (s.setMag c).tws = s.tws := rfl
@[simp] theorem State.setMag_mlen (c : Cells Bits64) : (s.setMag c).mlen = s.mlen := rfl
@[simp] theorem State.setMag_err (c : Cells Bits64) : (s.setMag c).err = s.err := rfl
@[simp] theorem State.setMag_errCode (c : Cells Bits64) : (s.setMag c).errCode = s.errCode := rfl
@[simp] theorem State.setMag_errInfo (c : Cells Bits64) : (s.setMag c).errInfo = s.errInfo := rfl
@[simp] theorem State.setMag_port (c : Cells Bits64) : (s.setMag c).port = s.port := rfl
@[simp] theorem State.setMag_resps (c : Cells Bits64) : (s.setMag c).resps = s.resps := rfl
@[simp] theorem State.setMag_draw (c : Cells Bits64) : (s.setMag c).draw = s.draw := rfl

/-! ### setPix -/

@[simp] theorem State.setPix_smp (c : Cells Intensity) : (s.setPix c).smp = s.smp := rfl
@[simp] theorem State.setPix_xr (c : Cells Intensity) : (s.setPix c).xr = s.xr := rfl
@[simp] theorem State.setPix_xi (c : Cells Intensity) : (s.setPix c).xi = s.xi := rfl
@[simp] theorem State.setPix_mag (c : Cells Intensity) : (s.setPix c).mag = s.mag := rfl
@[simp] theorem State.setPix_pix (c : Cells Intensity) : (s.setPix c).pix = c := rfl
@[simp] theorem State.setPix_twlen (c : Cells Intensity) : (s.setPix c).twlen = s.twlen := rfl
@[simp] theorem State.setPix_twc (c : Cells Intensity) : (s.setPix c).twc = s.twc := rfl
@[simp] theorem State.setPix_tws (c : Cells Intensity) : (s.setPix c).tws = s.tws := rfl
@[simp] theorem State.setPix_mlen (c : Cells Intensity) : (s.setPix c).mlen = s.mlen := rfl
@[simp] theorem State.setPix_err (c : Cells Intensity) : (s.setPix c).err = s.err := rfl
@[simp] theorem State.setPix_errCode (c : Cells Intensity) : (s.setPix c).errCode = s.errCode := rfl
@[simp] theorem State.setPix_errInfo (c : Cells Intensity) : (s.setPix c).errInfo = s.errInfo := rfl
@[simp] theorem State.setPix_port (c : Cells Intensity) : (s.setPix c).port = s.port := rfl
@[simp] theorem State.setPix_resps (c : Cells Intensity) : (s.setPix c).resps = s.resps := rfl
@[simp] theorem State.setPix_draw (c : Cells Intensity) : (s.setPix c).draw = s.draw := rfl

/-! ### setMlen -/

@[simp] theorem State.setMlen_smp (n : Nat) : (s.setMlen n).smp = s.smp := rfl
@[simp] theorem State.setMlen_xr (n : Nat) : (s.setMlen n).xr = s.xr := rfl
@[simp] theorem State.setMlen_xi (n : Nat) : (s.setMlen n).xi = s.xi := rfl
@[simp] theorem State.setMlen_mag (n : Nat) : (s.setMlen n).mag = s.mag := rfl
@[simp] theorem State.setMlen_pix (n : Nat) : (s.setMlen n).pix = s.pix := rfl
@[simp] theorem State.setMlen_twlen (n : Nat) : (s.setMlen n).twlen = s.twlen := rfl
@[simp] theorem State.setMlen_twc (n : Nat) : (s.setMlen n).twc = s.twc := rfl
@[simp] theorem State.setMlen_tws (n : Nat) : (s.setMlen n).tws = s.tws := rfl
@[simp] theorem State.setMlen_mlen (n : Nat) : (s.setMlen n).mlen = n := rfl
@[simp] theorem State.setMlen_err (n : Nat) : (s.setMlen n).err = s.err := rfl
@[simp] theorem State.setMlen_errCode (n : Nat) : (s.setMlen n).errCode = s.errCode := rfl
@[simp] theorem State.setMlen_errInfo (n : Nat) : (s.setMlen n).errInfo = s.errInfo := rfl
@[simp] theorem State.setMlen_port (n : Nat) : (s.setMlen n).port = s.port := rfl
@[simp] theorem State.setMlen_resps (n : Nat) : (s.setMlen n).resps = s.resps := rfl
@[simp] theorem State.setMlen_draw (n : Nat) : (s.setMlen n).draw = s.draw := rfl

/-! ### setTables -/

@[simp] theorem State.setTables_smp (n : Nat) (c t : Cells Bits64) : (s.setTables n c t).smp = s.smp := rfl
@[simp] theorem State.setTables_xr (n : Nat) (c t : Cells Bits64) : (s.setTables n c t).xr = s.xr := rfl
@[simp] theorem State.setTables_xi (n : Nat) (c t : Cells Bits64) : (s.setTables n c t).xi = s.xi := rfl
@[simp] theorem State.setTables_mag (n : Nat) (c t : Cells Bits64) : (s.setTables n c t).mag = s.mag := rfl
@[simp] theorem State.setTables_pix (n : Nat) (c t : Cells Bits64) : (s.setTables n c t).pix = s.pix := rfl
@[simp] theorem State.setTables_twlen (n : Nat) (c t : Cells Bits64) : (s.setTables n c t).twlen = n := rfl
@[simp] theorem State.setTables_twc (n : Nat) (c t : Cells Bits64) : (s.setTables n c t).twc = c := rfl
@[simp] theorem State.setTables_tws (n : Nat) (c t : Cells Bits64) : (s.setTables n c t).tws = t := rfl
@[simp] theorem State.setTables_mlen (n : Nat) (c t : Cells Bits64) : (s.setTables n c t).mlen = s.mlen := rfl
@[simp] theorem State.setTables_err (n : Nat) (c t : Cells Bits64) : (s.setTables n c t).err = s.err := rfl
@[simp] theorem State.setTables_errCode (n : Nat) (c t : Cells Bits64) : (s.setTables n c t).errCode = s.errCode := rfl
@[simp] theorem State.setTables_errInfo (n : Nat) (c t : Cells Bits64) : (s.setTables n c t).errInfo = s.errInfo := rfl
@[simp] theorem State.setTables_port (n : Nat) (c t : Cells Bits64) : (s.setTables n c t).port = s.port := rfl
@[simp] theorem State.setTables_resps (n : Nat) (c t : Cells Bits64) : (s.setTables n c t).resps = s.resps := rfl
@[simp] theorem State.setTables_draw (n : Nat) (c t : Cells Bits64) : (s.setTables n c t).draw = s.draw := rfl

/-! ### setPort -/

@[simp] theorem State.setPort_smp (p : List Txn) : (s.setPort p).smp = s.smp := rfl
@[simp] theorem State.setPort_xr (p : List Txn) : (s.setPort p).xr = s.xr := rfl
@[simp] theorem State.setPort_xi (p : List Txn) : (s.setPort p).xi = s.xi := rfl
@[simp] theorem State.setPort_mag (p : List Txn) : (s.setPort p).mag = s.mag := rfl
@[simp] theorem State.setPort_pix (p : List Txn) : (s.setPort p).pix = s.pix := rfl
@[simp] theorem State.setPort_twlen (p : List Txn) : (s.setPort p).twlen = s.twlen := rfl
@[simp] theorem State.setPort_twc (p : List Txn) : (s.setPort p).twc = s.twc := rfl
@[simp] theorem State.setPort_tws (p : List Txn) : (s.setPort p).tws = s.tws := rfl
@[simp] theorem State.setPort_mlen (p : List Txn) : (s.setPort p).mlen = s.mlen := rfl
@[simp] theorem State.setPort_err (p : List Txn) : (s.setPort p).err = s.err := rfl
@[simp] theorem State.setPort_errCode (p : List Txn) : (s.setPort p).errCode = s.errCode := rfl
@[simp] theorem State.setPort_errInfo (p : List Txn) : (s.setPort p).errInfo = s.errInfo := rfl
@[simp] theorem State.setPort_port (p : List Txn) : (s.setPort p).port = p := rfl
@[simp] theorem State.setPort_resps (p : List Txn) : (s.setPort p).resps = s.resps := rfl
@[simp] theorem State.setPort_draw (p : List Txn) : (s.setPort p).draw = s.draw := rfl

/-! ### latchFault -/

@[simp] theorem State.latchFault_smp (c : FaultCode) (d : Cell) : (s.latchFault c d).smp = s.smp := rfl
@[simp] theorem State.latchFault_xr (c : FaultCode) (d : Cell) : (s.latchFault c d).xr = s.xr := rfl
@[simp] theorem State.latchFault_xi (c : FaultCode) (d : Cell) : (s.latchFault c d).xi = s.xi := rfl
@[simp] theorem State.latchFault_mag (c : FaultCode) (d : Cell) : (s.latchFault c d).mag = s.mag := rfl
@[simp] theorem State.latchFault_pix (c : FaultCode) (d : Cell) : (s.latchFault c d).pix = s.pix := rfl
@[simp] theorem State.latchFault_twlen (c : FaultCode) (d : Cell) : (s.latchFault c d).twlen = s.twlen := rfl
@[simp] theorem State.latchFault_twc (c : FaultCode) (d : Cell) : (s.latchFault c d).twc = s.twc := rfl
@[simp] theorem State.latchFault_tws (c : FaultCode) (d : Cell) : (s.latchFault c d).tws = s.tws := rfl
@[simp] theorem State.latchFault_mlen (c : FaultCode) (d : Cell) : (s.latchFault c d).mlen = s.mlen := rfl
@[simp] theorem State.latchFault_err (c : FaultCode) (d : Cell) : (s.latchFault c d).err = true := rfl
@[simp] theorem State.latchFault_errCode (c : FaultCode) (d : Cell) : (s.latchFault c d).errCode = faultCode c := rfl
@[simp] theorem State.latchFault_errInfo (c : FaultCode) (d : Cell) : (s.latchFault c d).errInfo = d := rfl
@[simp] theorem State.latchFault_port (c : FaultCode) (d : Cell) : (s.latchFault c d).port = s.port := rfl
@[simp] theorem State.latchFault_resps (c : FaultCode) (d : Cell) : (s.latchFault c d).resps = s.resps := rfl
@[simp] theorem State.latchFault_draw (c : FaultCode) (d : Cell) : (s.latchFault c d).draw = s.draw := rfl

/-! ### softReset -/

@[simp] theorem State.softReset_smp : s.softReset.smp = s.smp := rfl
@[simp] theorem State.softReset_xr : s.softReset.xr = s.xr := rfl
@[simp] theorem State.softReset_xi : s.softReset.xi = s.xi := rfl
@[simp] theorem State.softReset_mag : s.softReset.mag = s.mag := rfl
@[simp] theorem State.softReset_pix : s.softReset.pix = s.pix := rfl
@[simp] theorem State.softReset_twlen : s.softReset.twlen = 0 := rfl
@[simp] theorem State.softReset_twc : s.softReset.twc = [] := rfl
@[simp] theorem State.softReset_tws : s.softReset.tws = [] := rfl
@[simp] theorem State.softReset_mlen : s.softReset.mlen = 0 := rfl
@[simp] theorem State.softReset_err : s.softReset.err = false := rfl
@[simp] theorem State.softReset_errCode : s.softReset.errCode = 0#4 := rfl
@[simp] theorem State.softReset_errInfo : s.softReset.errInfo = 0#64 := rfl
@[simp] theorem State.softReset_port : s.softReset.port = s.port := rfl
@[simp] theorem State.softReset_resps : s.softReset.resps = s.resps := rfl
@[simp] theorem State.softReset_draw : s.softReset.draw = s.draw := rfl

/-! ### hardReset -/

@[simp] theorem State.hardReset_smp : s.hardReset.smp = [] := rfl
@[simp] theorem State.hardReset_xr : s.hardReset.xr = [] := rfl
@[simp] theorem State.hardReset_xi : s.hardReset.xi = [] := rfl
@[simp] theorem State.hardReset_mag : s.hardReset.mag = [] := rfl
@[simp] theorem State.hardReset_pix : s.hardReset.pix = [] := rfl
@[simp] theorem State.hardReset_twlen : s.hardReset.twlen = 0 := rfl
@[simp] theorem State.hardReset_twc : s.hardReset.twc = [] := rfl
@[simp] theorem State.hardReset_tws : s.hardReset.tws = [] := rfl
@[simp] theorem State.hardReset_mlen : s.hardReset.mlen = 0 := rfl
@[simp] theorem State.hardReset_err : s.hardReset.err = false := rfl
@[simp] theorem State.hardReset_errCode : s.hardReset.errCode = 0#4 := rfl
@[simp] theorem State.hardReset_errInfo : s.hardReset.errInfo = 0#64 := rfl
@[simp] theorem State.hardReset_port : s.hardReset.port = s.port := rfl
@[simp] theorem State.hardReset_resps : s.hardReset.resps = s.resps := rfl
@[simp] theorem State.hardReset_draw : s.hardReset.draw = s.draw := rfl

/-! ### complete -/

@[simp] theorem State.complete_smp (r : Option Resp) : (s.complete r).smp = s.smp := rfl
@[simp] theorem State.complete_xr (r : Option Resp) : (s.complete r).xr = s.xr := rfl
@[simp] theorem State.complete_xi (r : Option Resp) : (s.complete r).xi = s.xi := rfl
@[simp] theorem State.complete_mag (r : Option Resp) : (s.complete r).mag = s.mag := rfl
@[simp] theorem State.complete_pix (r : Option Resp) : (s.complete r).pix = s.pix := rfl
@[simp] theorem State.complete_twlen (r : Option Resp) : (s.complete r).twlen = s.twlen := rfl
@[simp] theorem State.complete_twc (r : Option Resp) : (s.complete r).twc = s.twc := rfl
@[simp] theorem State.complete_tws (r : Option Resp) : (s.complete r).tws = s.tws := rfl
@[simp] theorem State.complete_mlen (r : Option Resp) : (s.complete r).mlen = s.mlen := rfl
@[simp] theorem State.complete_err (r : Option Resp) : (s.complete r).err = s.err := rfl
@[simp] theorem State.complete_errCode (r : Option Resp) : (s.complete r).errCode = s.errCode := rfl
@[simp] theorem State.complete_errInfo (r : Option Resp) : (s.complete r).errInfo = s.errInfo := rfl
@[simp] theorem State.complete_port (r : Option Resp) : (s.complete r).port = s.port := rfl
@[simp] theorem State.complete_resps (r : Option Resp) : (s.complete r).resps = r.toList ++ s.resps := rfl
@[simp] theorem State.complete_draw (r : Option Resp) : (s.complete r).draw = s.draw + 1 := rfl

end Sys2Proof.Machine
end

