-- ==== Sys2Proof/Laws/Bodies.lean ====
section
/-! SUPPORT. The bodies of the commands, field by field: what each leaves alone, what it writes, and that it keeps the canonical form of the
arrays. -/

namespace Sys2Proof.Machine

variable (s : State)

/-! ### winBody: the fields it leaves alone -/

@[simp] theorem State.winBody_smp : s.winBody.smp = s.smp := by simp [State.winBody]
@[simp] theorem State.winBody_xi : s.winBody.xi = s.xi := by simp [State.winBody]
@[simp] theorem State.winBody_mag : s.winBody.mag = s.mag := by simp [State.winBody]
@[simp] theorem State.winBody_pix : s.winBody.pix = s.pix := by simp [State.winBody]
@[simp] theorem State.winBody_twlen : s.winBody.twlen = s.twlen := by simp [State.winBody]
@[simp] theorem State.winBody_twc : s.winBody.twc = s.twc := by simp [State.winBody]
@[simp] theorem State.winBody_tws : s.winBody.tws = s.tws := by simp [State.winBody]
@[simp] theorem State.winBody_mlen : s.winBody.mlen = s.mlen := by simp [State.winBody]
@[simp] theorem State.winBody_err : s.winBody.err = s.err := by simp [State.winBody]
@[simp] theorem State.winBody_errCode : s.winBody.errCode = s.errCode := by simp [State.winBody]
@[simp] theorem State.winBody_errInfo : s.winBody.errInfo = s.errInfo := by simp [State.winBody]
@[simp] theorem State.winBody_port : s.winBody.port = s.port := by simp [State.winBody]
@[simp] theorem State.winBody_resps : s.winBody.resps = s.resps := by simp [State.winBody]
@[simp] theorem State.winBody_draw : s.winBody.draw = s.draw := by simp [State.winBody]

/-! ### cachePrepare: the fields it leaves alone -/

@[simp] theorem State.cachePrepare_smp (n : Nat) : (s.cachePrepare n).smp = s.smp := by unfold State.cachePrepare; split <;> rfl
@[simp] theorem State.cachePrepare_xr (n : Nat) : (s.cachePrepare n).xr = s.xr := by unfold State.cachePrepare; split <;> rfl
@[simp] theorem State.cachePrepare_xi (n : Nat) : (s.cachePrepare n).xi = s.xi := by unfold State.cachePrepare; split <;> rfl
@[simp] theorem State.cachePrepare_mag (n : Nat) : (s.cachePrepare n).mag = s.mag := by unfold State.cachePrepare; split <;> rfl
@[simp] theorem State.cachePrepare_pix (n : Nat) : (s.cachePrepare n).pix = s.pix := by unfold State.cachePrepare; split <;> rfl
@[simp] theorem State.cachePrepare_mlen (n : Nat) : (s.cachePrepare n).mlen = s.mlen := by unfold State.cachePrepare; split <;> rfl
@[simp] theorem State.cachePrepare_err (n : Nat) : (s.cachePrepare n).err = s.err := by unfold State.cachePrepare; split <;> rfl
@[simp] theorem State.cachePrepare_errCode (n : Nat) : (s.cachePrepare n).errCode = s.errCode := by unfold State.cachePrepare; split <;> rfl
@[simp] theorem State.cachePrepare_errInfo (n : Nat) : (s.cachePrepare n).errInfo = s.errInfo := by unfold State.cachePrepare; split <;> rfl
@[simp] theorem State.cachePrepare_port (n : Nat) : (s.cachePrepare n).port = s.port := by unfold State.cachePrepare; split <;> rfl
@[simp] theorem State.cachePrepare_resps (n : Nat) : (s.cachePrepare n).resps = s.resps := by unfold State.cachePrepare; split <;> rfl
@[simp] theorem State.cachePrepare_draw (n : Nat) : (s.cachePrepare n).draw = s.draw := by unfold State.cachePrepare; split <;> rfl

/-! ### storeTransform: the fields it leaves alone -/

@[simp] theorem State.storeTransform_smp (n : Nat) (y : List (Cx Bits64)) : (s.storeTransform n y).smp = s.smp := by simp [State.storeTransform]
@[simp] theorem State.storeTransform_mag (n : Nat) (y : List (Cx Bits64)) : (s.storeTransform n y).mag = s.mag := by simp [State.storeTransform]
@[simp] theorem State.storeTransform_pix (n : Nat) (y : List (Cx Bits64)) : (s.storeTransform n y).pix = s.pix := by simp [State.storeTransform]
@[simp] theorem State.storeTransform_twlen (n : Nat) (y : List (Cx Bits64)) : (s.storeTransform n y).twlen = s.twlen := by simp [State.storeTransform]
@[simp] theorem State.storeTransform_twc (n : Nat) (y : List (Cx Bits64)) : (s.storeTransform n y).twc = s.twc := by simp [State.storeTransform]
@[simp] theorem State.storeTransform_tws (n : Nat) (y : List (Cx Bits64)) : (s.storeTransform n y).tws = s.tws := by simp [State.storeTransform]
@[simp] theorem State.storeTransform_mlen (n : Nat) (y : List (Cx Bits64)) : (s.storeTransform n y).mlen = s.mlen := by simp [State.storeTransform]
@[simp] theorem State.storeTransform_err (n : Nat) (y : List (Cx Bits64)) : (s.storeTransform n y).err = s.err := by simp [State.storeTransform]
@[simp] theorem State.storeTransform_errCode (n : Nat) (y : List (Cx Bits64)) : (s.storeTransform n y).errCode = s.errCode := by simp [State.storeTransform]
@[simp] theorem State.storeTransform_errInfo (n : Nat) (y : List (Cx Bits64)) : (s.storeTransform n y).errInfo = s.errInfo := by simp [State.storeTransform]
@[simp] theorem State.storeTransform_port (n : Nat) (y : List (Cx Bits64)) : (s.storeTransform n y).port = s.port := by simp [State.storeTransform]
@[simp] theorem State.storeTransform_resps (n : Nat) (y : List (Cx Bits64)) : (s.storeTransform n y).resps = s.resps := by simp [State.storeTransform]
@[simp] theorem State.storeTransform_draw (n : Nat) (y : List (Cx Bits64)) : (s.storeTransform n y).draw = s.draw := by simp [State.storeTransform]

/-! ### fftBody: the fields it leaves alone -/

@[simp] theorem State.fftBody_smp (n : Nat) : (s.fftBody n).smp = s.smp := by simp [State.fftBody]
@[simp] theorem State.fftBody_mag (n : Nat) : (s.fftBody n).mag = s.mag := by simp [State.fftBody]
@[simp] theorem State.fftBody_pix (n : Nat) : (s.fftBody n).pix = s.pix := by simp [State.fftBody]
@[simp] theorem State.fftBody_mlen (n : Nat) : (s.fftBody n).mlen = s.mlen := by simp [State.fftBody]
@[simp] theorem State.fftBody_err (n : Nat) : (s.fftBody n).err = s.err := by simp [State.fftBody]
@[simp] theorem State.fftBody_errCode (n : Nat) : (s.fftBody n).errCode = s.errCode := by simp [State.fftBody]
@[simp] theorem State.fftBody_errInfo (n : Nat) : (s.fftBody n).errInfo = s.errInfo := by simp [State.fftBody]
@[simp] theorem State.fftBody_port (n : Nat) : (s.fftBody n).port = s.port := by simp [State.fftBody]
@[simp] theorem State.fftBody_resps (n : Nat) : (s.fftBody n).resps = s.resps := by simp [State.fftBody]
@[simp] theorem State.fftBody_draw (n : Nat) : (s.fftBody n).draw = s.draw := by simp [State.fftBody]

/-! ### fftrBody: the fields it leaves alone -/

@[simp] theorem State.fftrBody_smp (n : Nat) : (s.fftrBody n).smp = s.smp := by simp [State.fftrBody]
@[simp] theorem State.fftrBody_mag (n : Nat) : (s.fftrBody n).mag = s.mag := by simp [State.fftrBody]
@[simp] theorem State.fftrBody_pix (n : Nat) : (s.fftrBody n).pix = s.pix := by simp [State.fftrBody]
@[simp] theorem State.fftrBody_mlen (n : Nat) : (s.fftrBody n).mlen = s.mlen := by simp [State.fftrBody]
@[simp] theorem State.fftrBody_err (n : Nat) : (s.fftrBody n).err = s.err := by simp [State.fftrBody]
@[simp] theorem State.fftrBody_errCode (n : Nat) : (s.fftrBody n).errCode = s.errCode := by simp [State.fftrBody]
@[simp] theorem State.fftrBody_errInfo (n : Nat) : (s.fftrBody n).errInfo = s.errInfo := by simp [State.fftrBody]
@[simp] theorem State.fftrBody_port (n : Nat) : (s.fftrBody n).port = s.port := by simp [State.fftrBody]
@[simp] theorem State.fftrBody_resps (n : Nat) : (s.fftrBody n).resps = s.resps := by simp [State.fftrBody]
@[simp] theorem State.fftrBody_draw (n : Nat) : (s.fftrBody n).draw = s.draw := by simp [State.fftrBody]

/-! ### storeMagnitudes: the fields it leaves alone -/

@[simp] theorem State.storeMagnitudes_smp (n : Nat) : (s.storeMagnitudes n).smp = s.smp := by simp [State.storeMagnitudes]
@[simp] theorem State.storeMagnitudes_xr (n : Nat) : (s.storeMagnitudes n).xr = s.xr := by simp [State.storeMagnitudes]
@[simp] theorem State.storeMagnitudes_xi (n : Nat) : (s.storeMagnitudes n).xi = s.xi := by simp [State.storeMagnitudes]
@[simp] theorem State.storeMagnitudes_pix (n : Nat) : (s.storeMagnitudes n).pix = s.pix := by simp [State.storeMagnitudes]
@[simp] theorem State.storeMagnitudes_twlen (n : Nat) : (s.storeMagnitudes n).twlen = s.twlen := by simp [State.storeMagnitudes]
@[simp] theorem State.storeMagnitudes_twc (n : Nat) : (s.storeMagnitudes n).twc = s.twc := by simp [State.storeMagnitudes]
@[simp] theorem State.storeMagnitudes_tws (n : Nat) : (s.storeMagnitudes n).tws = s.tws := by simp [State.storeMagnitudes]
@[simp] theorem State.storeMagnitudes_err (n : Nat) : (s.storeMagnitudes n).err = s.err := by simp [State.storeMagnitudes]
@[simp] theorem State.storeMagnitudes_errCode (n : Nat) : (s.storeMagnitudes n).errCode = s.errCode := by simp [State.storeMagnitudes]
@[simp] theorem State.storeMagnitudes_errInfo (n : Nat) : (s.storeMagnitudes n).errInfo = s.errInfo := by simp [State.storeMagnitudes]
@[simp] theorem State.storeMagnitudes_port (n : Nat) : (s.storeMagnitudes n).port = s.port := by simp [State.storeMagnitudes]
@[simp] theorem State.storeMagnitudes_resps (n : Nat) : (s.storeMagnitudes n).resps = s.resps := by simp [State.storeMagnitudes]
@[simp] theorem State.storeMagnitudes_draw (n : Nat) : (s.storeMagnitudes n).draw = s.draw := by simp [State.storeMagnitudes]

/-! ### magBody: the fields it leaves alone -/

@[simp] theorem State.magBody_smp (n : Nat) : (s.magBody n).smp = s.smp := by simp [State.magBody]
@[simp] theorem State.magBody_pix (n : Nat) : (s.magBody n).pix = s.pix := by simp [State.magBody]
@[simp] theorem State.magBody_err (n : Nat) : (s.magBody n).err = s.err := by simp [State.magBody]
@[simp] theorem State.magBody_errCode (n : Nat) : (s.magBody n).errCode = s.errCode := by simp [State.magBody]
@[simp] theorem State.magBody_errInfo (n : Nat) : (s.magBody n).errInfo = s.errInfo := by simp [State.magBody]
@[simp] theorem State.magBody_port (n : Nat) : (s.magBody n).port = s.port := by simp [State.magBody]
@[simp] theorem State.magBody_resps (n : Nat) : (s.magBody n).resps = s.resps := by simp [State.magBody]
@[simp] theorem State.magBody_draw (n : Nat) : (s.magBody n).draw = s.draw := by simp [State.magBody]

/-! ### scaleBody: the fields it leaves alone -/

@[simp] theorem State.scaleBody_smp (h : Nat) : (s.scaleBody h).smp = s.smp := by simp [State.scaleBody]
@[simp] theorem State.scaleBody_xr (h : Nat) : (s.scaleBody h).xr = s.xr := by simp [State.scaleBody]
@[simp] theorem State.scaleBody_xi (h : Nat) : (s.scaleBody h).xi = s.xi := by simp [State.scaleBody]
@[simp] theorem State.scaleBody_mag (h : Nat) : (s.scaleBody h).mag = s.mag := by simp [State.scaleBody]
@[simp] theorem State.scaleBody_twlen (h : Nat) : (s.scaleBody h).twlen = s.twlen := by simp [State.scaleBody]
@[simp] theorem State.scaleBody_twc (h : Nat) : (s.scaleBody h).twc = s.twc := by simp [State.scaleBody]
@[simp] theorem State.scaleBody_tws (h : Nat) : (s.scaleBody h).tws = s.tws := by simp [State.scaleBody]
@[simp] theorem State.scaleBody_mlen (h : Nat) : (s.scaleBody h).mlen = s.mlen := by simp [State.scaleBody]
@[simp] theorem State.scaleBody_err (h : Nat) : (s.scaleBody h).err = s.err := by simp [State.scaleBody]
@[simp] theorem State.scaleBody_errCode (h : Nat) : (s.scaleBody h).errCode = s.errCode := by simp [State.scaleBody]
@[simp] theorem State.scaleBody_errInfo (h : Nat) : (s.scaleBody h).errInfo = s.errInfo := by simp [State.scaleBody]
@[simp] theorem State.scaleBody_port (h : Nat) : (s.scaleBody h).port = s.port := by simp [State.scaleBody]
@[simp] theorem State.scaleBody_resps (h : Nat) : (s.scaleBody h).resps = s.resps := by simp [State.scaleBody]
@[simp] theorem State.scaleBody_draw (h : Nat) : (s.scaleBody h).draw = s.draw := by simp [State.scaleBody]

/-! ### frameBody: the fields it leaves alone -/

@[simp] theorem State.frameBody_smp : s.frameBody.smp = s.smp := by simp [State.frameBody]
@[simp] theorem State.frameBody_err : s.frameBody.err = s.err := by simp [State.frameBody]
@[simp] theorem State.frameBody_errCode : s.frameBody.errCode = s.errCode := by simp [State.frameBody]
@[simp] theorem State.frameBody_errInfo : s.frameBody.errInfo = s.errInfo := by simp [State.frameBody]
@[simp] theorem State.frameBody_port : s.frameBody.port = s.port := by simp [State.frameBody]
@[simp] theorem State.frameBody_resps : s.frameBody.resps = s.resps := by simp [State.frameBody]
@[simp] theorem State.frameBody_draw : s.frameBody.draw = s.draw := by simp [State.frameBody]

/-! ### What the bodies write -/

@[simp] theorem State.winBody_xr :
    s.winBody.xr = s.xr.fill Config.nMax (fun i => winSample Num.f64 (s.rdSmp i) (wrom i)) := by simp [State.winBody]

@[simp] theorem State.scaleBody_pix (h : Nat) :
    (s.scaleBody h).pix =
      s.pix.fill h (fun y => if y = 0 then 0#8 else BitVec.ofNat 8 (pixel Num.f64 (s.rdMag (h - y)))) := by simp [State.scaleBody]

@[simp] theorem State.storeMagnitudes_mag (n : Nat) :
    (s.storeMagnitudes n).mag =
      s.mag.fill n (fun i => s.settleNan .mag i (magnitude Num.f64 ⟨s.rdXr i, s.rdXi i⟩)) := by simp [State.storeMagnitudes]

@[simp] theorem State.storeMagnitudes_mlen (n : Nat) : (s.storeMagnitudes n).mlen = n := by
  simp [State.storeMagnitudes]

@[simp] theorem State.storeTransform_xr (n : Nat) (y : List (Cx Bits64)) :
    (s.storeTransform n y).xr = s.xr.fill n (fun i => s.outCell n .xr i (y.getD i ⟨F64.zero, F64.zero⟩).re) := by
  simp only [State.storeTransform, State.setXi_xr, State.setXr_xr]

@[simp] theorem State.storeTransform_xi (n : Nat) (y : List (Cx Bits64)) :
    (s.storeTransform n y).xi = s.xi.fill n (fun i => s.outCell n .xi i (y.getD i ⟨F64.zero, F64.zero⟩).im) := by
  simp only [State.storeTransform, State.setXi_xi]

@[simp] theorem State.fftBody_twlen (n : Nat) : (s.fftBody n).twlen = (s.cachePrepare n).twlen := by simp [State.fftBody]
@[simp] theorem State.fftBody_twc (n : Nat) : (s.fftBody n).twc = (s.cachePrepare n).twc := by simp [State.fftBody]
@[simp] theorem State.fftBody_tws (n : Nat) : (s.fftBody n).tws = (s.cachePrepare n).tws := by simp [State.fftBody]
@[simp] theorem State.fftrBody_twlen (n : Nat) : (s.fftrBody n).twlen = (s.cachePrepare n).twlen := by simp [State.fftrBody]
@[simp] theorem State.fftrBody_twc (n : Nat) : (s.fftrBody n).twc = (s.cachePrepare n).twc := by simp [State.fftrBody]
@[simp] theorem State.fftrBody_tws (n : Nat) : (s.fftrBody n).tws = (s.cachePrepare n).tws := by simp [State.fftrBody]
@[simp] theorem State.magBody_twlen (n : Nat) : (s.magBody n).twlen = (s.cachePrepare n).twlen := by simp [State.magBody]
@[simp] theorem State.magBody_twc (n : Nat) : (s.magBody n).twc = (s.cachePrepare n).twc := by simp [State.magBody]
@[simp] theorem State.magBody_tws (n : Nat) : (s.magBody n).tws = (s.cachePrepare n).tws := by simp [State.magBody]
@[simp] theorem State.magBody_mlen (n : Nat) : (s.magBody n).mlen = n := by simp [State.magBody]

/-! ### The canonical form is kept -/

variable {s}

theorem State.reset_wf : Memory.wf State.reset := by decide

theorem State.setSmp_wf (h : Memory.wf s) {c : Cells Sample} (hc : Cells.wf Config.nMax c) : Memory.wf (s.setSmp c) :=
  ⟨hc, h.2⟩

theorem State.setXr_wf (h : Memory.wf s) {c : Cells Bits64} (hc : Cells.wf Config.nMax c) : Memory.wf (s.setXr c) :=
  ⟨h.1, hc, h.2.2⟩

theorem State.setXi_wf (h : Memory.wf s) {c : Cells Bits64} (hc : Cells.wf Config.nMax c) : Memory.wf (s.setXi c) :=
  ⟨h.1, h.2.1, hc, h.2.2.2⟩

theorem State.setMag_wf (h : Memory.wf s) {c : Cells Bits64} (hc : Cells.wf Config.nMax c) : Memory.wf (s.setMag c) :=
  ⟨h.1, h.2.1, h.2.2.1, hc, h.2.2.2.2⟩

theorem State.setPix_wf (h : Memory.wf s) {c : Cells Intensity} (hc : Cells.wf Config.height c) :
    Memory.wf (s.setPix c) :=
  ⟨h.1, h.2.1, h.2.2.1, h.2.2.2.1, hc, h.2.2.2.2.2⟩

theorem State.setTables_wf (h : Memory.wf s) (n : Nat) {c t : Cells Bits64} (hc : Cells.wf Config.twMax c)
    (ht : Cells.wf Config.twMax t) : Memory.wf (s.setTables n c t) :=
  ⟨h.1, h.2.1, h.2.2.1, h.2.2.2.1, h.2.2.2.2.1, hc, ht⟩

theorem State.setMlen_wf (h : Memory.wf s) (n : Nat) : Memory.wf (s.setMlen n) := h

theorem State.setPort_wf (h : Memory.wf s) (p : List Txn) : Memory.wf (s.setPort p) := h

theorem State.complete_wf (h : Memory.wf s) (r : Option Resp) : Memory.wf (s.complete r) := h

theorem State.winBody_wf (h : Memory.wf s) : Memory.wf s.winBody := by
  unfold State.winBody
  exact State.setXr_wf h (Cells.wf_fill h.2.1 le_rfl _)

theorem State.cachePrepare_wf (h : Memory.wf s) {n : Nat} (hn : n ≤ Config.nMax) : Memory.wf (s.cachePrepare n) := by
  unfold State.cachePrepare
  split
  · have hn2 : n / 2 ≤ Config.twMax := by
      have h1 : n ≤ 2048 := hn
      show n / 2 ≤ 1024
      omega
    exact State.setTables_wf h n (Cells.wf_fill h.2.2.2.2.2.1 hn2 _) (Cells.wf_fill h.2.2.2.2.2.2 hn2 _)
  · exact h

theorem State.storeTransform_wf (h : Memory.wf s) {n : Nat} (hn : n ≤ Config.nMax) (y : List (Cx Bits64)) :
    Memory.wf (s.storeTransform n y) := by
  unfold State.storeTransform
  exact State.setXi_wf (State.setXr_wf h (Cells.wf_fill h.2.1 hn _)) (Cells.wf_fill h.2.2.1 hn _)

theorem State.storeMagnitudes_wf (h : Memory.wf s) {n : Nat} (hn : n ≤ Config.nMax) :
    Memory.wf (s.storeMagnitudes n) := by
  unfold State.storeMagnitudes
  exact State.setMlen_wf (State.setMag_wf h (Cells.wf_fill h.2.2.2.1 hn _)) n

theorem State.fftBody_wf (h : Memory.wf s) {n : Nat} (hn : n ≤ Config.nMax) : Memory.wf (s.fftBody n) :=
  State.storeTransform_wf (State.cachePrepare_wf h hn) hn _

theorem State.fftrBody_wf (h : Memory.wf s) {n : Nat} (hn : n ≤ Config.nMax) : Memory.wf (s.fftrBody n) :=
  State.storeTransform_wf (State.cachePrepare_wf h hn) hn _

theorem State.magBody_wf (h : Memory.wf s) {n : Nat} (hn : n ≤ Config.nMax) : Memory.wf (s.magBody n) :=
  State.storeMagnitudes_wf (State.fftrBody_wf h hn) hn

theorem State.scaleBody_wf (h : Memory.wf s) {k : Nat} (hk : k ≤ Config.height) : Memory.wf (s.scaleBody k) := by
  unfold State.scaleBody
  exact State.setPix_wf h (Cells.wf_fill h.2.2.2.2.1 hk _)

theorem State.frameBody_wf (h : Memory.wf s) : Memory.wf s.frameBody :=
  State.scaleBody_wf (State.magBody_wf (State.winBody_wf h) le_rfl) le_rfl

theorem State.latchFault_wf (h : Memory.wf s) (c : FaultCode) (d : Cell) : Memory.wf (s.latchFault c d) := h

theorem State.softReset_wf (h : Memory.wf s) : Memory.wf s.softReset := by
  obtain ⟨h1, h2, h3, h4, h5, -, -⟩ := h
  exact ⟨h1, h2, h3, h4, h5, Cells.wf_nil _, Cells.wf_nil _⟩

theorem State.hardReset_wf : Memory.wf s.hardReset :=
  ⟨Cells.wf_nil _, Cells.wf_nil _, Cells.wf_nil _, Cells.wf_nil _, Cells.wf_nil _, Cells.wf_nil _, Cells.wf_nil _⟩

end Sys2Proof.Machine
end

