-- ==== Sys2Proof/Laws/PerInstr.lean ====
section
/-! SUPPORT. One statement about every instruction as syntax: its command word has the reserved field 0 and an operation code of command set 1
(30_encoding R90, R94). -/

namespace Sys2Proof.Laws.EncodeReserved

/-- The command word of a well-formed command keeps `rsv` 0 and `op` at most 5. -/
def Statement (i : Instr) : Prop := i.wf = true → rsvField (encode i) = 0 ∧ opField (encode i) ≤ 5

/-- The word packed from fields that fit has those two fields. -/
theorem packWord_fields {op ia b a : Nat} (ho : op ≤ 5) (hi : ia ≤ 1) (hb : b < 4096) (ha : a < 4096) :
    rsvField (packWord op ia b a) = 0 ∧ opField (packWord op ia b a) ≤ 5 := by
  simp only [rsvField, opField, packWord, BitVec.toNat_ofNat]
  omega

theorem nop : Statement .nop := fun _ => packWord_fields (by omega) (by omega) (by omega) (by omega)

theorem win (len : Nat) : Statement (.win len) := fun h => by
  have := of_decide_eq_true h
  exact packWord_fields (by omega) (by omega) (by omega) this

theorem fft (nr ni : Nat) : Statement (.fft nr ni) := fun h => by
  simp only [Instr.wf, fitsField, Bool.and_eq_true, decide_eq_true_eq] at h
  exact packWord_fields (by omega) (by omega) h.2 h.1

theorem fftr (n : Nat) : Statement (.fftr n) := fun h => by
  have := of_decide_eq_true h
  exact packWord_fields (by omega) (by omega) (by omega) this

theorem mag (n : Nat) : Statement (.mag n) := fun h => by
  have := of_decide_eq_true h
  exact packWord_fields (by omega) (by omega) (by omega) this

theorem scale (h : Nat) : Statement (.scale h) := fun hw => by
  have := of_decide_eq_true hw
  exact packWord_fields (by omega) (by omega) (by omega) this

theorem frame : Statement .frame := fun _ => packWord_fields (by omega) (by omega) (by omega) (by omega)

end Sys2Proof.Laws.EncodeReserved
end

