-- ==== Sys2Proof/Laws/Step.lean ====
section
/-! SUPPORT. What the shared operations of a step can do, said once: the meanings of the commands, a write to `CMD`, a write to a cell, the
end of a transaction, one step. Proofs cite these and unfold nothing. -/

namespace Sys2Proof.Machine

variable {s t : State}

/-! ### The meanings: what a next state can be -/

theorem raiseFault_eq (c : FaultCode) (i : Instr) (s : State) :
    raiseFault c i s = .next (s.latchFault c (cmdData i)) := rfl

theorem legalFrame_iff (len : Nat) : legalFrame len = true ↔ len = 2048 := decide_eq_true_iff

theorem legalHeight_iff (h mlen : Nat) : legalHeight h mlen = true ↔ 1 ≤ h ∧ h ≤ 1024 ∧ h ≤ mlen := by
  have h2 : decide (h ≤ Config.height) = true ↔ h ≤ 1024 := decide_eq_true_iff
  simp only [legalHeight, Bool.and_eq_true, h2, decide_eq_true_eq, and_assoc]

theorem execNop_next : execNop s = .next t ↔ t = s := by simp [execNop, eq_comm]

theorem execWin_next {len : Nat} : execWin len s = .next t ↔
    (legalFrame len = true ∧ t = s.winBody) ∨
      (legalFrame len = false ∧ t = s.latchFault .eFrameLen (cmdData (.win len))) := by
  unfold execWin raiseFault
  cases legalFrame len <;> simp [eq_comm]

theorem execFft_next {nr ni : Nat} : execFft nr ni s = .next t ↔
    (legalLen nr = true ∧ ni = nr ∧ t = s.fftBody nr) ∨
      (legalLen nr = true ∧ ni ≠ nr ∧ t = s.latchFault .eMismatch (cmdData (.fft nr ni))) ∨
      (legalLen nr = false ∧ t = s.latchFault .eLen (cmdData (.fft nr ni))) := by
  unfold execFft raiseFault
  cases legalLen nr <;> by_cases h : ni = nr <;> simp [h, eq_comm]

theorem execFftr_next {n : Nat} : execFftr n s = .next t ↔
    (legalLen n = true ∧ t = s.fftrBody n) ∨ (legalLen n = false ∧ t = s.latchFault .eLen (cmdData (.fftr n))) := by
  unfold execFftr raiseFault
  cases legalLen n <;> simp [eq_comm]

theorem execMag_next {n : Nat} : execMag n s = .next t ↔
    (legalLen n = true ∧ t = s.magBody n) ∨ (legalLen n = false ∧ t = s.latchFault .eLen (cmdData (.mag n))) := by
  unfold execMag raiseFault
  cases legalLen n <;> simp [eq_comm]

theorem execScale_next {h : Nat} : execScale h s = .next t ↔
    (legalHeight h s.mlen = true ∧ t = s.scaleBody h) ∨
      (legalHeight h s.mlen = false ∧ t = s.latchFault .eHeight (cmdData (.scale h))) := by
  unfold execScale raiseFault
  cases legalHeight h s.mlen <;> simp [eq_comm]

theorem execFrame_next : execFrame s = .next t ↔ t = s.frameBody := by simp [execFrame, eq_comm]

/-! ### Transactions -/

theorem withCmdResp_next {o : Host.Outcome State Fault Refusal} {p : State × Resp} :
    withCmdResp o = .next p ↔ ∃ u, o = .next u ∧ p = (u, cmdResp u) := by
  cases o <;> simp [withCmdResp, eq_comm]

/-- What a write to `CMD` can do (R221). -/
theorem cmdWrite_next {d : Cell} {p : State × Resp} : cmdWrite d s = .next p ↔
    (s.err = true ∧ p = (s, .err)) ∨
      (s.err = false ∧ (∃ e, decode d = .error e) ∧ p = (s.latchFault .eIllCmd d, .err)) ∨
      (s.err = false ∧ ∃ i u, decode d = .ok i ∧ exec i s = .next u ∧ p = (u, cmdResp u)) := by
  unfold cmdWrite
  cases hs : s.err
  · cases hd : decode d with
    | error e => simp [eq_comm]
    | ok i => simp [withCmdResp_next]
  · simp [eq_comm]

theorem completeTxn_next {o : Host.Outcome (State × Resp) Fault Refusal} :
    completeTxn o = .next t ↔ ∃ p, o = .next p ∧ t = p.1.complete (some p.2) := by
  cases o <;> simp [completeTxn, eq_comm]

/-- With no transaction pending the step changes nothing. -/
theorem step_of_port_nil (h : s.port = []) : step s = .next s := by simp [step, takeTxn, h]

/-- A step runs the transaction at the head of the host's list. -/
theorem step_of_port_cons {x : Txn} {rest : List Txn} (h : s.port = x :: rest) :
    step s = runTxn x (s.setPort rest) := by simp [step, takeTxn, h]

theorem runTxn_read (a : Addr) : runTxn (.read a) s = .next (s.complete (some (hostRead a s))) := rfl

theorem runTxn_write (a : Addr) (d : Cell) : runTxn (.write a d) s = completeTxn (writeCell d s (cellOf a)) := rfl

theorem runTxn_reset : runTxn .reset s = .next (s.hardReset.complete none) := rfl

@[simp] theorem cellOf_cmdAddr : cellOf cmdAddr = .cmd := by decide +kernel
@[simp] theorem cellOf_ctrlAddr : cellOf ctrlAddr = .ctrl := by decide +kernel

/-! ### `CMD` and `CTRL` have one address each (R61) -/

theorem registerOf_eq_cmd {k : Nat} (h : registerOf k = .cmd) : k = 0 := by
  unfold registerOf at h
  split at h <;> first | rfl | exact absurd h (by decide)

theorem registerOf_eq_ctrl {k : Nat} (h : registerOf k = .ctrl) : k = 4 := by
  unfold registerOf at h
  split at h <;> first | rfl | exact absurd h (by decide)

/-- Below `0x3800` there is neither `CMD` nor `CTRL`. -/
theorem cellOf_low {a : Addr} (h : a.toNat < 0x3800) : cellOf a ≠ .cmd ∧ cellOf a ≠ .ctrl := by
  simp only [cellOf]
  generalize a.toNat = n at h ⊢
  split_ifs <;> exact ⟨nofun, nofun⟩

/-- From `0x3800` on an address names a register or is reserved. -/
theorem cellOf_high {a : Addr} (h : 0x3800 ≤ a.toNat) : cellOf a = registerOf (a.toNat - 0x3800) := by
  simp only [cellOf]
  generalize a.toNat = n at h ⊢
  generalize registerOf (n - 0x3800) = r
  split_ifs <;> first | rfl | (exfalso; omega)

theorem eq_cmdAddr {a : Addr} (h : cellOf a = .cmd) : a = cmdAddr := by
  have h1 : 0x3800 ≤ a.toNat := Nat.le_of_not_lt fun hl => (cellOf_low hl).1 h
  have h2 := registerOf_eq_cmd ((cellOf_high h1).symm.trans h)
  exact BitVec.eq_of_toNat_eq (show a.toNat = 0x3800 by omega)

theorem eq_ctrlAddr {a : Addr} (h : cellOf a = .ctrl) : a = ctrlAddr := by
  have h1 : 0x3800 ≤ a.toNat := Nat.le_of_not_lt fun hl => (cellOf_low hl).2 h
  have h2 := registerOf_eq_ctrl ((cellOf_high h1).symm.trans h)
  exact BitVec.eq_of_toNat_eq (show a.toNat = 0x3804 by omega)

/-! ### The array index of an address is inside its array -/

/-- The index of what an address names is inside its array (R61). -/
def PortCell.Inside : PortCell → Prop
  | .smp i | .xr i | .xi i | .mag i | .wrom i => i < 2048
  | .pix y | .col y => y < 1024
  | .prom i => i < 256
  | .cmd | .status | .mlen | .twlen | .ctrl | .id | .errInfo | .reserved => True

theorem registerOf_inside (k : Nat) : (registerOf k).Inside := by
  unfold registerOf
  split <;> trivial

/-- Every index the address map answers is inside its array (R61). -/
theorem cellOf_inside (a : Addr) : (cellOf a).Inside := by
  simp only [cellOf]
  generalize a.toNat = n
  split_ifs with h1 h2 h3 h4 h5 h6 h7 h8 h9
  · exact h1
  · show n - 0x0800 < 2048; omega
  · show n - 0x1000 < 2048; omega
  · show n - 0x1800 < 2048; omega
  · show n - 0x2000 < 1024; omega
  · show n - 0x2400 < 1024; omega
  · show n - 0x2800 < 256; omega
  · trivial
  · show n - 0x3000 < 2048; omega
  · generalize n - 0x3800 = k
    exact registerOf_inside k

end Sys2Proof.Machine
end

