-- ==== Sys2Proof/Tests/Slice0.lean ====
section
/-! SUPPORT. The model's own tests. Expected values come from the spec: the words of 30_encoding and 95_test_vectors (V-E1 to V-E3), the vectors
V-W, V-F, V-S, V-P and program PG6 of 95_test_vectors, the table of 43_palette R203. The last part holds one witness for the hypotheses of every
statement that has some. -/

namespace Sys2Proof.Machine

/-! ### Helpers -/

/-- The next state, the reset state where there is none. -/
def nextOf : Host.Outcome State Fault Refusal → State
  | .next t => t
  | .fault _ => State.reset
  | .refused _ => State.reset

/-- Whether an outcome is a next state. -/
def isNext : Host.Outcome State Fault Refusal → Bool
  | .next _ => true
  | .fault _ => false
  | .refused _ => false

theorem next_of_isNext {o : Host.Outcome State Fault Refusal} (h : isNext o = true) : ∃ t, o = .next t := by
  cases o with
  | next t => exact ⟨t, rfl⟩
  | fault r => cases h
  | refused r => cases h

/-- The state after a write to `CMD` as the host's only transaction. -/
def afterWord (d : Cell) (s : State) : State := nextOf (runTxn (.write cmdAddr d) s)

/-- Whether the write data decodes to no command. -/
def isIllegal (d : Cell) : Bool :=
  match decode d with
  | .ok _ => false
  | .error _ => true

/-- What the decoder answers. -/
def commandOf (d : Cell) : Option Instr :=
  match decode d with
  | .ok i => some i
  | .error _ => none

/-- Numbered cells from a list. -/
def cellsFrom {α : Type} (l : List α) : Cells α := l.zipIdx.map (fun p => (p.2, p.1))

/-! ### Well-formedness: each check has a term it refuses -/

theorem test_wf_win : (Instr.win 4096).wf = false ∧ (Instr.win 4095).wf = true := by decide
theorem test_wf_fft_real : (Instr.fft 4096 0).wf = false ∧ (Instr.fft 4095 0).wf = true := by decide
theorem test_wf_fft_imaginary : (Instr.fft 0 4096).wf = false ∧ (Instr.fft 0 4095).wf = true := by decide
theorem test_wf_fftr : (Instr.fftr 4096).wf = false ∧ (Instr.fftr 4095).wf = true := by decide
theorem test_wf_mag : (Instr.mag 4096).wf = false ∧ (Instr.mag 4095).wf = true := by decide
theorem test_wf_scale : (Instr.scale 4096).wf = false ∧ (Instr.scale 4095).wf = true := by decide

/-! ### Decoding: words written from the encodings of R90 and R92, and the vectors V-E1 to V-E3 -/

/-- One word per row, bit by bit from the pattern column of R92 (op, ia, rsv, b, a). -/
theorem test_decode_patterns :
    commandOf 0b00000000000000000000000000000000#64 = some .nop ∧
    commandOf 0b00010000000000000000100000000000#64 = some (.win 2048) ∧
    commandOf 0b00100000000000000100000000001000#64 = some (.fft 8 4) ∧
    commandOf 0b00101000000000000000000000001000#64 = some (.fftr 8) ∧
    commandOf 0b00110000000000000000000000001000#64 = some (.mag 8) ∧
    commandOf 0b01000000000000000000010000000000#64 = some (.scale 1024) ∧
    commandOf 0b01010000000000000000000000000000#64 = some .frame := by decide

/-- V-E1 and V-E3. -/
theorem test_decode_legal :
    [0x10000800#64, 0x100007FF#64, 0x10000000#64, 0x20008008#64, 0x20006006#64, 0x20800800#64, 0x20FFFFFF#64].map commandOf =
      [some (.win 2048), some (.win 2047), some (.win 0), some (.fft 8 8), some (.fft 6 6), some (.fft 2048 2048),
        some (.fft 4095 4095)] ∧
    [0x20000000#64, 0x28000001#64, 0x28000800#64, 0x30000800#64, 0x40000001#64, 0x40000004#64, 0x40000401#64].map commandOf =
      [some (.fft 0 0), some (.fftr 1), some (.fftr 2048), some (.mag 2048), some (.scale 1), some (.scale 4), some (.scale 1025)] ∧
    [0x20FFF001#64, 0x20001001#64].map commandOf = [some (.fft 1 4095), some (.fft 1 1)] := by decide

/-- V-E2. -/
theorem test_decode_illegal :
    [0x00000001#64, 0x00001000#64, 0x01000000#64, 0x08000000#64, 0x10001800#64, 0x18000800#64, 0x28001008#64, 0x2C000008#64].all
      isIllegal = true ∧
    [0x21008008#64, 0x30001008#64, 0x38000008#64, 0x40400400#64, 0x50000001#64, 0x60000000#64, 0xF0000000#64].all isIllegal = true ∧
    [0xFFFFFFFF#64, 0x0000000100000000#64, 0x8000000050000000#64].all isIllegal = true := by decide

/-- The encoder writes the words of V-E1. -/
theorem test_encode :
    [Instr.nop, .win 2048, .fft 8 4, .fftr 2048, .mag 8, .scale 1024, .frame].map encode =
      [0x00000000#32, 0x10000800#32, 0x20004008#32, 0x28000800#32, 0x30000008#32, 0x40000400#32, 0x50000000#32] := by decide

/-- The decoder as the host asks it. -/
theorem test_table_word : decodeTableWord 32 0x28000008 = some (.fftr 8) ∧ decodeTableWord 32 0x60000000 = none := by decide

/-! ### The address map: the first and the last cell of every region (R61) -/

theorem test_map_buffers :
    [0x0000#16, 0x07FF#16, 0x0800#16, 0x0FFF#16, 0x1000#16, 0x17FF#16, 0x1800#16, 0x1FFF#16].map cellOf =
      [.smp 0, .smp 2047, .xr 0, .xr 2047, .xi 0, .xi 2047, .mag 0, .mag 2047] ∧
    [0x2000#16, 0x23FF#16, 0x2400#16, 0x27FF#16, 0x2800#16, 0x28FF#16, 0x2900#16, 0x2FFF#16, 0x3000#16, 0x37FF#16].map cellOf =
      [.pix 0, .pix 1023, .col 0, .col 1023, .prom 0, .prom 255, .reserved, .reserved, .wrom 0, .wrom 2047] := by
  decide +kernel

theorem test_map_registers :
    [0x3800#16, 0x3801#16, 0x3802#16, 0x3803#16, 0x3804#16, 0x3805#16, 0x3806#16, 0x3807#16, 0xFFFF#16].map cellOf =
      [.cmd, .status, .mlen, .twlen, .ctrl, .id, .errInfo, .reserved, .reserved] := by decide +kernel

/-! ### The palette: all 256 entries of R203 -/

/-- `PROM[0..31]` as 43_palette R203 prints them. -/
theorem test_palette_0 : (List.range 32).map (fun i => prom (BitVec.ofNat 8 (0 + i))) =
  [
    0x000000#24, 0x010000#24, 0x020000#24, 0x030000#24, 0x040000#24, 0x050000#24, 0x060000#24, 0x070000#24,
    0x080000#24, 0x090000#24, 0x0A0000#24, 0x0B0000#24, 0x0C0000#24, 0x0D0000#24, 0x0E0000#24, 0x0F0000#24,
    0x100000#24, 0x110000#24, 0x120000#24, 0x130000#24, 0x140000#24, 0x150000#24, 0x160000#24, 0x170000#24,
    0x180000#24, 0x190000#24, 0x1A0000#24, 0x1B0000#24, 0x1C0000#24, 0x1D0000#24, 0x1E0000#24, 0x1F0000#24 ] := by decide +kernel

/-- `PROM[32..63]` as 43_palette R203 prints them. -/
theorem test_palette_32 : (List.range 32).map (fun i => prom (BitVec.ofNat 8 (32 + i))) =
  [
    0x200000#24, 0x210000#24, 0x220000#24, 0x230000#24, 0x240000#24, 0x250000#24, 0x260000#24, 0x270000#24,
    0x280000#24, 0x290000#24, 0x2A0000#24, 0x2B0000#24, 0x2C0000#24, 0x2D0000#24, 0x2E0000#24, 0x2F0000#24,
    0x300000#24, 0x310000#24, 0x320000#24, 0x330000#24, 0x340000#24, 0x350000#24, 0x360000#24, 0x370000#24,
    0x380000#24, 0x390000#24, 0x3A0000#24, 0x3B0000#24, 0x3C0000#24, 0x3D0000#24, 0x3E0000#24, 0x3F0000#24 ] := by decide +kernel

/-- `PROM[64..95]` as 43_palette R203 prints them. -/
theorem test_palette_64 : (List.range 32).map (fun i => prom (BitVec.ofNat 8 (64 + i))) =
  [
    0x400000#24, 0x410000#24, 0x420000#24, 0x430000#24, 0x440000#24, 0x450000#24, 0x460000#24, 0x470000#24,
    0x480000#24, 0x490000#24, 0x4A0000#24, 0x4B0000#24, 0x4C0000#24, 0x4D0000#24, 0x4E0000#24, 0x4F0000#24,
    0x500000#24, 0x510000#24, 0x520000#24, 0x530000#24, 0x540000#24, 0x550000#24, 0x560000#24, 0x570000#24,
    0x580000#24, 0x590000#24, 0x5A0000#24, 0x5B0000#24, 0x5C0000#24, 0x5D0000#24, 0x5E0000#24, 0x5F0000#24 ] := by decide +kernel

/-- `PROM[96..127]` as 43_palette R203 prints them. -/
theorem test_palette_96 : (List.range 32).map (fun i => prom (BitVec.ofNat 8 (96 + i))) =
  [
    0x600000#24, 0x610000#24, 0x620000#24, 0x630000#24, 0x640000#24, 0x650101#24, 0x660303#24, 0x670404#24,
    0x680606#24, 0x690808#24, 0x6A0909#24, 0x6B0B0B#24, 0x6C0D0D#24, 0x6D0E0E#24, 0x6E1010#24, 0x6F1111#24,
    0x701313#24, 0x711515#24, 0x721616#24, 0x731818#24, 0x741A1A#24, 0x751B1B#24, 0x761D1D#24, 0x771F1F#24,
    0x782020#24, 0x792222#24, 0x7A2323#24, 0x7B2525#24, 0x7C2727#24, 0x7D2828#24, 0x7E2A2A#24, 0x7F2C2C#24 ] := by decide +kernel

/-- `PROM[128..159]` as 43_palette R203 prints them. -/
theorem test_palette_128 : (List.range 32).map (fun i => prom (BitVec.ofNat 8 (128 + i))) =
  [
    0x802D2D#24, 0x812F2F#24, 0x823131#24, 0x833232#24, 0x843434#24, 0x853535#24, 0x863737#24, 0x873939#24,
    0x883A3A#24, 0x893C3C#24, 0x8A3E3E#24, 0x8B3F3F#24, 0x8C4141#24, 0x8D4343#24, 0x8E4444#24, 0x8F4646#24,
    0x904747#24, 0x914949#24, 0x924B4B#24, 0x934C4C#24, 0x944E4E#24, 0x955050#24, 0x965151#24, 0x975353#24,
    0x985555#24, 0x995656#24, 0x9A5858#24, 0x9B5959#24, 0x9C5B5B#24, 0x9D5D5D#24, 0x9E5E5E#24, 0x9F6060#24 ] := by decide +kernel

/-- `PROM[160..191]` as 43_palette R203 prints them. -/
theorem test_palette_160 : (List.range 32).map (fun i => prom (BitVec.ofNat 8 (160 + i))) =
  [
    0xA06262#24, 0xA16363#24, 0xA26565#24, 0xA36666#24, 0xA46868#24, 0xA56A6A#24, 0xA66B6B#24, 0xA76D6D#24,
    0xA86F6F#24, 0xA97070#24, 0xAA7272#24, 0xAB7474#24, 0xAC7575#24, 0xAD7777#24, 0xAE7878#24, 0xAF7A7A#24,
    0xB07C7C#24, 0xB17D7D#24, 0xB27F7F#24, 0xB38181#24, 0xB48282#24, 0xB58484#24, 0xB68686#24, 0xB78787#24,
    0xB88989#24, 0xB98A8A#24, 0xBA8C8C#24, 0xBB8E8E#24, 0xBC8F8F#24, 0xBD9191#24, 0xBE9393#24, 0xBF9494#24 ] := by decide +kernel

/-- `PROM[192..223]` as 43_palette R203 prints them. -/
theorem test_palette_192 : (List.range 32).map (fun i => prom (BitVec.ofNat 8 (192 + i))) =
  [
    0xC09696#24, 0xC19898#24, 0xC29999#24, 0xC39B9B#24, 0xC49C9C#24, 0xC59E9E#24, 0xC6A0A0#24, 0xC7A1A1#24,
    0xC8A3A3#24, 0xC9A5A5#24, 0xCAA6A6#24, 0xCBA8A8#24, 0xCCAAAA#24, 0xCDABAB#24, 0xCEADAD#24, 0xCFAEAE#24,
    0xD0B0B0#24, 0xD1B2B2#24, 0xD2B3B3#24, 0xD3B5B5#24, 0xD4B7B7#24, 0xD5B8B8#24, 0xD6BABA#24, 0xD7BBBB#24,
    0xD8BDBD#24, 0xD9BFBF#24, 0xDAC0C0#24, 0xDBC2C2#24, 0xDCC4C4#24, 0xDDC5C5#24, 0xDEC7C7#24, 0xDFC9C9#24 ] := by decide +kernel

/-- `PROM[224..255]` as 43_palette R203 prints them. -/
theorem test_palette_224 : (List.range 32).map (fun i => prom (BitVec.ofNat 8 (224 + i))) =
  [
    0xE0CACA#24, 0xE1CCCC#24, 0xE2CDCD#24, 0xE3CFCF#24, 0xE4D1D1#24, 0xE5D2D2#24, 0xE6D4D4#24, 0xE7D6D6#24,
    0xE8D7D7#24, 0xE9D9D9#24, 0xEADBDB#24, 0xEBDCDC#24, 0xECDEDE#24, 0xEDDFDF#24, 0xEEE1E1#24, 0xEFE3E3#24,
    0xF0E4E4#24, 0xF1E6E6#24, 0xF2E8E8#24, 0xF3E9E9#24, 0xF4EBEB#24, 0xF5EDED#24, 0xF6EEEE#24, 0xF7F0F0#24,
    0xF8F1F1#24, 0xF9F3F3#24, 0xFAF5F5#24, 0xFBF6F6#24, 0xFCF8F8#24, 0xFDFAFA#24, 0xFEFBFB#24, 0xFFFDFD#24 ] := by decide +kernel

/-- `COL` shows the palette entry of `PIX` (V-P: intensity 185 is `B98A8A`). -/
theorem test_col_read : hostRead 0x27FF#16 { State.reset with pix := [(1023, 185#8)] } = .data 0xB98A8A#64 := by decide +kernel

/-! ### Numbers -/

/-- The sum of V-F3's trace that rounds, 1/3, 3·0.5, and the nearest tie: 2^53 + 1 goes to the even 2^53. -/
theorem test_round :
    F64.add 0xC000000000000000#64 0xBC91A62633145C07#64 = 0xC000000000000000#64 ∧
    F64.div (F64.ofInt 1) (F64.ofInt 3) = 0x3FD5555555555555#64 ∧
    F64.mul (F64.ofInt 3) F64.half = 0x3FF8000000000000#64 ∧ F64.ofInt (2 ^ 53 + 1) = 0x4340000000000000#64 ∧
    F64.sqrt (F64.ofInt 2) = 0x3FF6A09E667F3BCD#64 := by decide +kernel

/-! ### NOP -/

/-- The all-zero word is answered `OK` and changes no register (R222). -/
theorem test_nop : afterWord 0#64 State.reset = State.reset.complete (some .ok) := by decide +kernel

/-- While halted it answers `ERR` (R221, R222). -/
theorem test_nop_halted :
    (afterWord 0#64 (faulted 1#4 0x20006006#64 State.reset)).resps = [.err] ∧
    (afterWord 0#64 (faulted 1#4 0x20006006#64 State.reset)).errInfo = 0x20006006#64 := by decide +kernel

/-! ### WIN -/

/-- V-W3: −5 times +0 is −0; 500 and −2^31 times 2; a tagged entry gives +0. -/
theorem test_win_products :
    winSample Num.f64 ⟨false, -5#32⟩ F64.zero = 0x8000000000000000#64 ∧
    winSample Num.f64 ⟨false, 500#32⟩ (F64.ofInt 2) = 0x408F400000000000#64 ∧
    winSample Num.f64 ⟨false, 0x80000000#32⟩ (F64.ofInt 2) = 0xC1F0000000000000#64 ∧
    winSample Num.f64 ⟨true, 0xDEADBEEF#32⟩ (F64.ofInt 2) = 0x0000000000000000#64 := by decide +kernel

/-- V-W5: `WIN 2047` raises `E_FRAMELEN`: `STATUS` reads 0x31, `ERRINFO` the word, `XR` is unchanged. -/
theorem test_win_wrong_length :
    hostRead 0x3801#16 (afterWord 0x100007FF#64 State.reset) = .data 0x31#64 ∧
    hostRead 0x3806#16 (afterWord 0x100007FF#64 State.reset) = .data 0x100007FF#64 ∧
    (afterWord 0x100007FF#64 State.reset).xr = [] := by decide +kernel

/-! ### FFT, FFTR, MAG -/

/-- The table of length 4 as V-F1 gives it, in a state with the input of V-F3: 1, 2, 3, 4. -/
def fourPoint : State :=
  { State.reset with
    twlen := 4
    twc := [(0, 0x3FF0000000000000#64), (1, 0x3C91A62633145C07#64)]
    tws := [(0, 0x8000000000000000#64), (1, 0xBFF0000000000000#64)]
    xr := cellsFrom [F64.ofInt 1, F64.ofInt 2, F64.ofInt 3, F64.ofInt 4]
    xi := cellsFrom [F64.zero, F64.zero, F64.zero, F64.zero] }

/-- V-F3: `FFT 4, 4`. -/
theorem test_fft_four :
    (nextOf (exec (.fft 4 4) fourPoint)).xr =
      cellsFrom [0x4024000000000000#64, 0xC000000000000000#64, 0xC000000000000000#64, 0xBFFFFFFFFFFFFFFF#64] ∧
    (nextOf (exec (.fft 4 4) fourPoint)).xi =
      cellsFrom [0x0000000000000000#64, 0x4000000000000000#64, 0x0000000000000000#64, 0xC000000000000000#64] := by
  decide +kernel

/-- PG6: `FFT 6, 6` is `E_LEN`; `FFT 8, 4` is `E_MISMATCH`; in the halted state the first record stays. -/
theorem test_fft_faults :
    hostRead 0x3801#16 (afterWord 0x20006006#64 State.reset) = .data 0x11#64 ∧
    hostRead 0x3801#16 (afterWord 0x20004008#64 State.reset) = .data 0x21#64 ∧
    hostRead 0x3806#16 (afterWord 0x20004008#64 (afterWord 0x20006006#64 State.reset)) = .data 0x20006006#64 := by
  decide +kernel

/-- V-F2: `FFTR 2` on 3, 5 with the table of length 2 gives 8, −2 and +0, +0. -/
theorem test_fftr_two :
    (nextOf (exec (.fftr 2) { State.reset with
      twlen := 2, twc := [(0, F64.one)], tws := [(0, 0x8000000000000000#64)], xr := cellsFrom [F64.ofInt 3, F64.ofInt 5] })).xr =
        cellsFrom [0x4020000000000000#64, 0xC000000000000000#64] ∧
    (nextOf (exec (.fftr 2) { State.reset with
      twlen := 2, twc := [(0, F64.one)], tws := [(0, 0x8000000000000000#64)], xr := cellsFrom [F64.ofInt 3, F64.ofInt 5] })).xi =
        cellsFrom [0x0000000000000000#64, 0x0000000000000000#64] := by decide +kernel

/-- V-F4: `FFTR 1` on −3 leaves it, sets `XI[0]` to +0 and leaves the cache key. -/
theorem test_fftr_one :
    (nextOf (exec (.fftr 1) { State.reset with twlen := 8, xr := [(0, F64.ofInt (-3))], xi := [(0, F64.one)] })).xr =
      [(0, F64.ofInt (-3))] ∧
    (nextOf (exec (.fftr 1) { State.reset with twlen := 8, xr := [(0, F64.ofInt (-3))], xi := [(0, F64.one)] })).xi =
      [(0, F64.zero)] ∧
    (nextOf (exec (.fftr 1) { State.reset with twlen := 8, xr := [(0, F64.ofInt (-3))] })).twlen = 8 := by decide +kernel

/-- V-F4: `MAG 1` on −3 gives 3 and `MLEN` 1. -/
theorem test_mag_one :
    (nextOf (exec (.mag 1) { State.reset with xr := [(0, F64.ofInt (-3))] })).mag = [(0, 0x4008000000000000#64)] ∧
    (nextOf (exec (.mag 1) { State.reset with xr := [(0, F64.ofInt (-3))] })).mlen = 1 := by decide +kernel

/-- V-F7, with the table of length 8 of V-F1: the two peaks are exactly 4 and `MLEN` is 8. -/
theorem test_mag_eight :
    let s := nextOf (exec (.mag 8) { State.reset with
      twlen := 8
      twc := cellsFrom [F64.one, 0x3FE6A09E667F3BCD#64, 0x3C91A62633145C07#64, 0xBFE6A09E667F3BCC#64]
      tws := cellsFrom [0x8000000000000000#64, 0xBFE6A09E667F3BCC#64, 0xBFF0000000000000#64, 0xBFE6A09E667F3BCD#64]
      xr := cellsFrom [0x3FF0000000000000#64, 0x3FE6A09E667F3BCD#64, 0x3C91A62633145C07#64, 0xBFE6A09E667F3BCC#64,
        0xBFF0000000000000#64, 0xBFE6A09E667F3BCE#64, 0xBCAA79394C9E8A0A#64, 0x3FE6A09E667F3BCB#64] })
    s.mag.look 1 = some 0x4010000000000000#64 ∧ s.mag.look 7 = some 0x4010000000000000#64 ∧ s.mlen = 8 := by decide +kernel

/-! ### SCALE -/

/-- R181's example: with `flog10` of the halved magnitude given as 2, 3, 0 and 8, the pixels are 37, 77, 0 and 255 (R184, R185). -/
theorem test_scale_pixels :
    pixel { Num.f64 with flog10 := fun _ => F64.ofInt 2 } (F64.ofInt 200) = 37 ∧
    pixel { Num.f64 with flog10 := fun _ => F64.ofInt 3 } (F64.ofInt 2000) = 77 ∧
    pixel { Num.f64 with flog10 := fun _ => F64.ofInt 0 } (F64.ofInt 2) = 0 ∧
    pixel { Num.f64 with flog10 := fun _ => F64.ofInt 8 } (F64.ofInt 200000000) = 255 := by decide +kernel

/-- R181, R184 (a) to (c): rows below the height are 0 for zeros, a negative number and a NaN, the row at the height is kept; a height above
`MLEN` is `E_HEIGHT`. -/
theorem test_scale_column :
    (nextOf (exec (.scale 4) { State.reset with
      mlen := 4, mag := cellsFrom [F64.inf, F64.zero, F64.ofInt (-1), F64.qNaN], pix := [(4, 9#8)] })).pix =
        cellsFrom [0#8, 0#8, 0#8, 0#8, 9#8] ∧
    hostRead 0x3801#16 (afterWord 0x40000004#64 { State.reset with mlen := 3 }) = .data 0x41#64 := by decide +kernel

/-! ### FRAME -/

/-- FRAME runs from reset, without a fault, and leaves `MLEN` and `TWLEN` 2048 (R223). -/
theorem test_frame_lengths :
    (nextOf (exec .frame State.reset)).mlen = 2048 ∧ (nextOf (exec .frame State.reset)).twlen = 2048 ∧
      (nextOf (exec .frame State.reset)).err = false := ⟨rfl, rfl, rfl⟩

/-! ### Registers and resets -/

/-- `MLEN` takes 2048 and refuses 2049 (R34). -/
theorem test_mlen_bound :
    (nextOf (runTxn (.write 0x3802#16 2048#64) State.reset)).mlen = 2048 ∧
    (nextOf (runTxn (.write 0x3802#16 2049#64) State.reset)).mlen = 0 ∧
    (nextOf (runTxn (.write 0x3802#16 2049#64) State.reset)).resps = [.err] := by decide +kernel

/-- PG6: `SRST` clears the fault and keeps the buffers (R312). -/
theorem test_soft_reset :
    nextOf (runTxn scriptSrst { faulted 1#4 0x20006006#64 State.reset with xr := [(5, F64.ofInt 6)], twlen := 8, mlen := 8 }) =
      ({ State.reset with xr := [(5, F64.ofInt 6)] }).complete (some .ok) := by decide +kernel

/-- V-D1 and E6: 95 columns of 100 at 44100 Hz; two offsets for 2931 samples (PG7). -/
theorem test_host_counts :
    (frameOffsets 44100 441).length = 95 ∧ gridWidth 44100 441 = 100 ∧ frameOffsets 2931 441 = [0, 441] ∧
      gridWidth 2931 441 = 7 := by decide +kernel

/-! ### Witnesses: for every statement with hypotheses, concrete values that meet them together -/

/-- A halted state, with the record of `FFT 6, 6` (PG6). -/
def haltedState : State := faulted 1#4 0x20006006#64 State.reset

/-- Reset with these transactions pending. -/
def resetWith (p : List Txn) : State := { State.reset with port := p }

/-- The cache is empty, so its tables match. -/
theorem test_tables_of_reset (s : State) (h : s.twlen = 0) : TablesMatch s := fun k hk => by
  simp only [h] at hk; omega

/-- A state whose cache holds the table of length 2, and an impulse of length 2 in `XR`. -/
def impulseState : State :=
  { State.reset with
    twlen := 2, twc := [(0, twCos Num.f64 0 2)], tws := [(0, twSin Num.f64 0 2)], xr := [(0, F64.one), (1, 0x8000000000000000#64)] }

theorem test_tables_of_two : TablesMatch impulseState := fun k hk => by
  have hk : k < 1 := hk
  obtain rfl : k = 0 := by omega
  exact ⟨rfl, rfl⟩

/-- Any two states whose buffers are empty, with an empty cache, meet the invariant, whatever the draw counter. -/
theorem test_inv_of_empty (p : List Txn) (k : Nat) : State.Inv { State.reset with port := p, draw := k } where
  key := Or.inl rfl
  tables := test_tables_of_reset _ rfl
  mlen := Nat.zero_le _
  record := ⟨fun _ => ⟨rfl, rfl⟩, fun h => by simp [State.reset] at h⟩
  memory := by simp [Memory.wf, Cells.wf, State.reset]

theorem test_hyp_DecodeAfterEncodeIsTheCommand :
    (Instr.fft 4095 4095).wf = true ∧ (Instr.fft 0 0).wf = true ∧ (Instr.scale 4095).wf = true ∧ Instr.nop.wf = true := by decide

theorem test_hyp_EncodeAfterDecodeIsTheWord :
    decode 0x20FFFFFF#64 = .ok (.fft 4095 4095) ∧ decode 0x00000000#64 = .ok .nop ∧ decode 0x28000FFF#64 = .ok (.fftr 4095) :=
  ⟨rfl, rfl, rfl⟩

theorem test_hyp_DecodingIsTheOpcodeMap :
    (⟨.fftr, 0xFFFFF000#32, 0x28000000#32⟩ : OpcodeRow) ∈ opcodeMap ∧
      (⟨.fftr, 0xFFFFF000#32, 0x28000000#32⟩ : OpcodeRow).spells 0x28000FFF#32 = true := by decide

theorem test_hyp_IllegalWordsRaiseIllCmd :
    State.reset.err = false ∧ (0x0000000100000000#64 : Cell).extractLsb' 32 32 ≠ 0#32 ∧
      (∀ r ∈ opcodeMap, r.spells ((0x60000000#64 : Cell).extractLsb' 0 32) = false) ∧
      (∀ r ∈ opcodeMap, r.spells ((0x00000001#64 : Cell).extractLsb' 0 32) = false) := by decide

theorem test_hyp_StepRunsTheDecodedCommand :
    (resetWith [.write cmdAddr 0x28000008#64]).port = .write cmdAddr 0x28000008#64 :: [] ∧
      (resetWith [.write cmdAddr 0x28000008#64]).err = false ∧ decode 0x28000008#64 = .ok (.fftr 8) ∧
      decodeTableWord 32 0x50000000 = some .frame := ⟨rfl, rfl, rfl, rfl⟩

theorem test_hyp_CommandDispatch :
    haltedState.err = true ∧ State.reset.err = false ∧ (∃ e, decode 0xFFFFFFFF#64 = .error e) ∧
      decode 0x10000800#64 = .ok (.win 2048) ∧ decode 0x100007FF#64 = .ok (.win 2047) :=
  ⟨rfl, rfl, ⟨_, rfl⟩, rfl, rfl⟩

/-- Each row of the table of faults at a value on either side of its boundary (R271). -/
theorem test_hyp_FaultTable :
    [tableCode (.fft 0 0) 0, tableCode (.fftr 4095) 0, tableCode (.mag 3) 0, tableCode (.fft 8 4) 0, tableCode (.win 2047) 0,
      tableCode (.scale 0) 8, tableCode (.scale 1025) 2048, tableCode (.scale 9) 8] =
        [some 1#4, some 1#4, some 1#4, some 2#4, some 3#4, some 4#4, some 4#4, some 4#4] ∧
    [tableCode (.fft 1 1) 0, tableCode (.fftr 2048) 0, tableCode (.mag 2048) 0, tableCode (.win 2048) 0, tableCode (.scale 1) 1,
      tableCode (.scale 1024) 1024, tableCode .nop 0, tableCode .frame 0] = List.replicate 8 none := by decide

/-- A step that raises a fault: an illegal word, and a bad operand. -/
theorem test_hyp_FaultTable_step :
    (∃ t, State.err (resetWith [.write cmdAddr 0x60000000#64]) = false ∧
      step (resetWith [.write cmdAddr 0x60000000#64]) = .next t ∧ t.err = true) ∧
    (∃ t, State.err (resetWith [.write cmdAddr 0x30000003#64]) = false ∧
      step (resetWith [.write cmdAddr 0x30000003#64]) = .next t ∧ t.err = true) :=
  ⟨⟨_, rfl, rfl, rfl⟩, ⟨_, rfl, rfl, rfl⟩⟩

theorem test_hyp_FaultPriority :
    haltedState.err = true ∧ State.reset.err = false ∧ (∃ e, decode 0x38000003#64 = .error e) ∧ 6 ∉ legalLengths ∧
      0 ∉ legalLengths ∧ 4095 ∉ legalLengths ∧ 8 ∈ legalLengths ∧ 1 ∈ legalLengths ∧ 2048 ∈ legalLengths ∧ 4 ≠ 8 ∧
      decode 0x20004008#64 = .ok (.fft 8 4) ∧
      hostWrite cmdAddr 0x20004008#64 State.reset = .next (faulted 2#4 0x20004008#64 State.reset, .err) :=
  ⟨rfl, rfl, ⟨_, rfl⟩, by decide, by decide, by decide, by decide, by decide, by decide, by decide, rfl, rfl⟩

theorem test_hyp_FaultEntryLatchesAndHalts :
    State.reset.err = false ∧ State.err (faulted 5#4 0x0000000100000000#64 State.reset) = true ∧
      hostWrite cmdAddr 0x0000000100000000#64 State.reset = .next (faulted 5#4 0x0000000100000000#64 State.reset, .err) ∧
      hostWrite cmdAddr 0x40000001#64 State.reset = .next (faulted 4#4 0x40000001#64 State.reset, .err) := ⟨rfl, rfl, rfl, rfl⟩

/-- Halted: a command, a soft reset and a hardware reset. -/
theorem test_hyp_HaltEndsOnlyByReset :
    (∃ t, step (haltedState.setPort [.write cmdAddr 0#64]) = .next t) ∧
      (∃ t, step (haltedState.setPort [.write ctrlAddr 1#64]) = .next t ∧ t.err = false) ∧
      (∃ t, step (haltedState.setPort [.write ctrlAddr 2#64]) = .next t ∧ t.err = true) ∧
      ∃ t, step (haltedState.setPort [.reset]) = .next t ∧ t.err = false :=
  ⟨⟨_, rfl⟩, ⟨_, rfl, rfl⟩, ⟨_, rfl, rfl⟩, ⟨_, rfl, rfl⟩⟩

/-- The flag is set by a step, cleared by a step, and a command runs with it 0. -/
theorem test_hyp_ErrorFlagIsTheOnlyFlag :
    (∃ t, step (resetWith [.write cmdAddr 0x60000000#64]) = .next t ∧ t.err = true) ∧
      (∃ t, haltedState.err = true ∧ step (haltedState.setPort [.write ctrlAddr 1#64]) = .next t ∧ t.err = false) ∧
      ∃ t, State.reset.err = false ∧ exec .frame State.reset = .next t ∧ t.err = false :=
  ⟨⟨_, rfl, rfl⟩, ⟨_, rfl, rfl, rfl⟩, ⟨_, rfl, rfl, rfl⟩⟩

theorem test_hyp_WinWindowsTheFrame :
    decode 0x10000FFF#64 = .ok (.win 4095) ∧ (2047 : Nat) ≠ 2048 ∧ decode 0x100007FF#64 = .ok (.win 2047) ∧
      State.reset.err = false := ⟨rfl, by decide, rfl, rfl⟩

/-- A state with the most negative sample, a zero and a tagged entry. -/
theorem test_hyp_WinCornerCases :
    (State.rdSmp { State.reset with smp := [(0, ⟨false, 0x80000000#32⟩), (1, ⟨true, 5#32⟩), (2047, ⟨false, 0#32⟩)] } 0).nn = false ∧
      (State.rdSmp { State.reset with smp := [(0, ⟨false, 0x80000000#32⟩), (1, ⟨true, 5#32⟩), (2047, ⟨false, 0#32⟩)] } 1).nn = true ∧
      (State.rdSmp { State.reset with smp := [(0, ⟨false, 0x80000000#32⟩), (1, ⟨true, 5#32⟩), (2047, ⟨false, 0#32⟩)] } 2047).v = 0#32 :=
  ⟨rfl, rfl, rfl⟩

theorem test_hyp_LegalLengthsAreThePowersOfTwo :
    0 ∉ legalLengths ∧ 3 ∉ legalLengths ∧ 2049 ∉ legalLengths ∧ 4095 ∉ legalLengths ∧ decode 0x30000000#64 = .ok (.mag 0) :=
  ⟨by decide, by decide, by decide, by decide, rfl⟩

/-- A rebuild, a reuse, length 1, and a command that faults. -/
theorem test_hyp_TwiddleCacheRule :
    (2 ∈ legalLengths ∧ State.reset.twlen ≠ 2) ∧ (2 ∈ legalLengths ∧ impulseState.twlen = 2) ∧ 1 ∈ legalLengths ∧
      ∃ t, State.reset.err = false ∧ exec (.mag 3) State.reset = .next t ∧ t.err = true :=
  ⟨by decide, by decide, by decide, ⟨_, rfl, rfl, rfl⟩⟩

theorem test_hyp_TwiddleTableValues : 2 ∈ legalLengths ∧ 0 < 2 / 2 ∧ 2048 ∈ legalLengths ∧ 1023 < 2048 / 2 ∧ 1 ∈ legalLengths := by
  decide

theorem test_hyp_ButterflyRecursion :
    0 < 1 ∧ [(⟨F64.one, F64.zero⟩ : Cx Bits64), ⟨F64.zero, F64.zero⟩].length = 2 ^ (0 + 1) ∧ 0 < 2 ^ 0 ∧
      10 < 11 ∧ (List.replicate 2048 (⟨F64.one, F64.zero⟩ : Cx Bits64)).length = 2 ^ (10 + 1) ∧ 1023 < 2 ^ 10 :=
  ⟨by decide, rfl, by decide, by decide, List.length_replicate, by decide⟩

theorem test_hyp_FftTransformsInPlace :
    6 ∉ legalLengths ∧ 8 ∈ legalLengths ∧ 4 ≠ 8 ∧ 1 ∈ legalLengths ∧ 2048 ∈ legalLengths ∧ 4095 < 4096 := by decide

theorem test_hyp_FftrTransformsInPlace : 0 ∉ legalLengths ∧ 1 ∈ legalLengths ∧ 2048 ∈ legalLengths ∧ 4095 < 4096 := by decide

theorem test_hyp_MagLeavesTheMagnitudes : 2049 ∉ legalLengths ∧ 1 ∈ legalLengths ∧ 2048 ∈ legalLengths ∧ 4095 < 4096 := by decide

theorem test_hyp_RealTransformIsTheDft :
    (List.replicate 8 (⟨1, 0⟩ : Cx ℝ)).length = 2 ^ 3 ∧ 7 < 2 ^ 3 ∧ [(⟨1, 0⟩ : Cx ℝ)].length = 2 ^ 0 ∧ 0 < 2 ^ 0 := by simp

theorem test_hyp_StrideReadsTheLevelsTwiddle :
    (1 ≤ 1 ∧ 1 ≤ 11 ∧ 11 ≤ 11 ∧ 0 < 2 ^ (1 - 1)) ∧ 1 ≤ 11 ∧ 1023 < 2 ^ (11 - 1) := by decide

/-- An impulse of length 2, its second cell being −0, on a filled cache; of length 1. -/
theorem test_hyp_ImpulseHasAFlatSpectrum :
    (2 ∈ legalLengths ∧ TablesMatch impulseState ∧ impulseState.xr.look 0 = some F64.one ∧
      ∀ m, 1 ≤ m → m < 2 → ∃ z, impulseState.xr.look m = some z ∧ F64.isZero z = true) ∧ 1 ∈ legalLengths :=
  ⟨⟨by decide, test_tables_of_two, rfl, fun m h1 h2 => by
    obtain rfl : m = 1 := by omega
    exact ⟨_, rfl, by decide⟩⟩, by decide⟩

theorem test_hyp_SinusoidPeaksInTheReals : 2 ≤ 3 ∧ 3 ≤ 11 ∧ 0 < 1 ∧ 3 < 2 ^ 3 / 2 ∧ 7 < 2 ^ 3 := by decide

/-- Two states with the same input and different caches. -/
theorem test_hyp_TransformIgnoresTheCache :
    2 ∈ legalLengths ∧ TablesMatch impulseState ∧ TablesMatch { impulseState with twlen := 0 } ∧
      (∀ i, i < 2 → impulseState.rdXr i = State.rdXr { impulseState with twlen := 0 } i) ∧
      ∀ i, i < 2 → impulseState.rdXi i = State.rdXi { impulseState with twlen := 0 } i :=
  ⟨by decide, test_tables_of_two, test_tables_of_reset _ rfl, fun _ _ => rfl, fun _ _ => rfl⟩

theorem test_hyp_FftrIsFftWithZeroImaginary : 1 ∈ legalLengths ∧ 2048 ∈ legalLengths := by decide

/-- The heights on either side of each bound: 0, 1, `MLEN`, `MLEN + 1`, 1024, 1025. -/
theorem test_hyp_ScaleFillsTheColumn :
    State.mlen { State.reset with mlen := 8 } = 8 ∧ 0 < 1 ∧ 1 ≤ 8 ∧ 8 ≤ 8 ∧ 8 < 9 ∧ 1024 < 1025 ∧
      (1 ≤ 1024 ∧ 1024 ≤ 1024 ∧ 1024 ≤ State.mlen { State.reset with mlen := 2048 }) ∧ 4095 < 4096 :=
  ⟨rfl, by decide, by decide, by decide, by decide, by decide, by decide, by decide⟩

theorem test_hyp_PixelsStayInRange :
    F64.gt (F64.mul F64.zero F64.half) (F64.ofInt 0) = false ∧ F64.gt (F64.mul F64.one F64.half) (F64.ofInt 0) = true ∧ F64.gt (F64.ofInt 254) (F64.ofInt 0) = true ∧ F64.ge (F64.ofInt 254) (F64.ofInt 255) = false ∧
      F64.truncToNat (F64.ofInt 254) = 254 ∧
      F64.gt 0x0000000000000001#64 (F64.ofInt 0) = true ∧ F64.ge 0x0000000000000001#64 (F64.ofInt 255) = false ∧
      (1 ≤ 1 ∧ 1 ≤ 1024 ∧ 1 ≤ State.mlen { State.reset with mlen := 1 }) := by decide +kernel

theorem test_hyp_PixelThresholdsInTheReals : 1 ≤ 1 ∧ 1 ≤ 254 ∧ 254 ≤ 254 := by decide

theorem test_hyp_DegenerateMagnitudesSaturate :
    F64.isZero 0x8000000000000000#64 = true ∧ F64.neg (F64.ofInt (-1)) = true ∧ F64.isNaN F64.qNaN = true := by decide +kernel

theorem test_hyp_PixelIsMonotone : F64.ge F64.inf F64.one = true ∧ F64.ge F64.zero 0x8000000000000000#64 = true := by decide

theorem test_hyp_PaletteContents : 101 ≤ (101#8 : Intensity).toNat ∧ 101 ≤ (255#8 : Intensity).toNat := by decide

theorem test_hyp_PaletteLookupIsARead :
    255 < 256 ∧ 1023 < 1024 ∧ (resetWith [.read 0x2400#16]).port = .read 0x2400#16 :: [] ∧
      0x2400 ≤ (0x28FF#16 : Addr).toNat ∧ (0x28FF#16 : Addr).toNat < 0x2900 := by decide

/-- All entries tagged. -/
theorem test_hyp_SilentFrameGivesABlackColumn :
    TablesMatch { State.reset with smp := Cells.fill 2048 (fun _ => ⟨true, 7#32⟩) [] } ∧
      ∀ i, i < 2048 →
        (State.rdSmp { State.reset with smp := Cells.fill 2048 (fun _ => ⟨true, 7#32⟩) [] } i).nn = true :=
  ⟨test_tables_of_reset _ rfl, fun i h => by simp [State.rdSmp, h]⟩

theorem test_hyp_HostReadMap :
    2047 < 2048 ∧ 1023 < 1024 ∧ 255 < 256 ∧ (0x2900 ≤ (0x2FFF#16 : Addr).toNat ∧ (0x2FFF#16 : Addr).toNat < 0x3000) ∧
      0x3807 ≤ (0xFFFF#16 : Addr).toNat ∧ (resetWith [.read 0x3801#16]).port = .read 0x3801#16 :: [] ∧
      txnReadsUnwritten (.read 0x0802#16) { State.reset with xr := [(2, F64.one)] } = false := by decide +kernel

theorem test_hyp_HostWriteMap :
    (0x2400 ≤ (0x37FF#16 : Addr).toNat ∧ (0x37FF#16 : Addr).toNat < 0x3800) ∧ 0x3806 ≤ (0x3806#16 : Addr).toNat ∧
      hostWrite 0x2900#16 0#64 State.reset = .next (State.reset, .err) ∧
      hostWrite 0x3800#16 0x60000000#64 State.reset = .next (faulted 5#4 0x60000000#64 State.reset, .err) :=
  ⟨by decide, by decide, rfl, rfl⟩

theorem test_hyp_WriteThenReadBack :
    (0x07FF#16 : Addr).toNat < 0x2400 ∧ (0x23FF#16 : Addr).toNat < 0x2400 ∧ 0x2000 ≤ (0x23FF#16 : Addr).toNat ∧
      0x2000#16 ≠ 0x23FF#16 ∧ ¬(0x2000 ≤ (0x23FF#16 : Addr).toNat ∧ 0x2000#16 = 0x23FF#16 + 0x0400#16) := by decide

theorem test_hyp_StatusRegisterFields : State.reset.Inv ∧ State.reset.err = false := ⟨test_inv_of_empty [] 0, rfl⟩

theorem test_hyp_LengthRegisterWrites :
    (2048#64 : Cell).toNat ≤ 2048 ∧ 2048 < (2049#64 : Cell).toNat ∧ (1 ≤ 8 ∧ 8 ≤ 1024 ∧ 8 ≤ State.mlen { State.reset with mlen := 8 }) := by
  decide

theorem test_hyp_HardwareReset :
    (haltedState.setPort [.reset]).port = .reset :: [] ∧ State.reset.mlen = 0 ∧ decode 0x40000001#64 = .ok (.scale 1) :=
  ⟨rfl, rfl, rfl⟩

theorem test_hyp_SoftResetKeepsTheBuffers : (0xFFFFFFFFFFFFFFFF#64 : Cell).getLsbD 0 = true ∧ (1#64 : Cell).getLsbD 0 = true := by decide

/-- A command that stores, one that faults, and addresses they do not store to. -/
theorem test_hyp_CommandsChangeOnlyTheirCells :
    (∃ t, exec (.fft 1 1) State.reset = .next t ∧ t.err = false) ∧ storedBy (.fft 1 1) (cellOf 0x0801#16) = false ∧
      (∃ t, exec (.scale 1) State.reset = .next t ∧ t.err = true) ∧ (0x3802#16 : Addr) ≠ 0x3801#16 ∧
      (0x3802#16 : Addr) ≠ 0x3806#16 :=
  ⟨⟨_, rfl, rfl⟩, by decide +kernel, ⟨_, rfl, rfl⟩, by decide, by decide⟩

theorem test_hyp_EveryStepKeepsTheInvariant :
    ∃ t, State.Inv (resetWith [.write cmdAddr 0x50000000#64]) ∧ step (resetWith [.write cmdAddr 0x50000000#64]) = .next t :=
  ⟨_, test_inv_of_empty _ 0, rfl⟩

theorem test_hyp_EveryStepAnswers : (resetWith [.reset, .read 0#16]).port = .reset :: [.read 0#16] := rfl

/-- Reads: the first and last cell of a region, unwritten; a written cell; an idle port. -/
theorem test_hyp_StrictStepRefusesHostErrors_reads :
    (resetWith [.read 0x07FF#16]).port = .read (BitVec.ofNat 16 2047) :: [] ∧ State.reset.smp.look 2047 = none ∧
      (resetWith [.read 0x0FFF#16]).port = .read (BitVec.ofNat 16 (0x0800 + 2047)) :: [] ∧ State.reset.xr.look 2047 = none ∧
      (resetWith [.read 0x1000#16]).port = .read (BitVec.ofNat 16 (0x1000 + 0)) :: [] ∧ State.reset.xi.look 0 = none ∧
      (resetWith [.read 0x1FFF#16]).port = .read (BitVec.ofNat 16 (0x1800 + 2047)) :: [] ∧ State.reset.mag.look 2047 = none ∧
      (resetWith [.read 0x2000#16]).port = .read (BitVec.ofNat 16 (0x2000 + 0)) :: [] ∧ State.reset.pix.look 0 = none ∧
      (resetWith [.read 0x27FF#16]).port = .read (BitVec.ofNat 16 (0x2400 + 1023)) :: [] ∧ State.reset.pix.look 1023 = none ∧
      State.reset.port = [] ∧ hostErrorTxn (.read 0x3801#16) = false ∧ txnReadsUnwritten (.read 0x3801#16) State.reset = false :=
  ⟨rfl, rfl, rfl, rfl, rfl, rfl, rfl, rfl, rfl, rfl, rfl, rfl, rfl, by decide +kernel, by decide +kernel⟩

theorem test_hyp_StrictStepRefusesHostErrors_next : ∃ t, strictStep (resetWith [.read 0x3801#16]) = .next t :=
  next_of_isNext (by decide +kernel)

/-- Commands: halted, illegal, faulting, NOP, and each command that reads cells, with an unwritten cell of its own. -/
theorem test_hyp_StrictStepRefusesHostErrors_commands :
    (resetWith [.write cmdAddr 0x50000000#64]).port = .write cmdAddr 0x50000000#64 :: [] ∧ haltedState.err = true ∧
      (∃ e, decode 0x60000000#64 = .error e) ∧ State.reset.err = false ∧ tableCode (.fft 8 4) 0 ≠ none ∧
      decode 0x00000000#64 = .ok .nop ∧ decode 0x20004008#64 = .ok (.fft 8 4) ∧ decode 0x10000800#64 = .ok (.win 2048) ∧
      decode 0x50000000#64 = .ok .frame ∧ decode 0x20001001#64 = .ok (.fft 1 1) ∧ decode 0x28000800#64 = .ok (.fftr 2048) ∧
      decode 0x30000001#64 = .ok (.mag 1) ∧ decode 0x40000400#64 = .ok (.scale 1024) ∧ 1 ∈ legalLengths ∧ 2048 ∈ legalLengths ∧
      1 ≤ 1024 ∧ 1024 ≤ 1024 ∧ 1024 ≤ State.mlen { State.reset with mlen := 1024 } :=
  ⟨rfl, rfl, ⟨_, rfl⟩, rfl, by decide, rfl, rfl, rfl, rfl, rfl, rfl, rfl, rfl, by decide, by decide, by decide, by decide, by decide⟩

/-- A strict step that runs a command on written cells. -/
theorem test_hyp_StrictStepUsesNoFreeValueButNaNPayloads :
    (∃ t, strictStep (resetWith [.write 0x0800#16 5#64]) = .next t) ∧ State.Inv (resetWith [.write 0x0800#16 5#64]) ∧
      ∃ t, strictStep { resetWith [.write cmdAddr 0x28000001#64] with xr := [(0, F64.one)] } = .next t :=
  ⟨next_of_isNext (by decide +kernel), test_inv_of_empty _ 0, next_of_isNext (by decide +kernel)⟩

/-- Two instances with the same frame and different histories. -/
theorem test_hyp_ColumnDependsOnTheFrameAlone :
    State.Inv { State.reset with port := [], draw := 0 } ∧ State.Inv { State.reset with port := [.reset], draw := 0 } ∧
      ∀ i, i < 2048 →
        State.rdSmp { State.reset with port := [], draw := 0 } i = State.rdSmp { State.reset with port := [.reset], draw := 0 } i :=
  ⟨test_inv_of_empty _ _, test_inv_of_empty _ _, fun _ _ => rfl⟩

theorem test_hyp_RoundingIsToNearestEven :
    (2 ^ 54 - 1) * 2 ^ 2044 * 1 ≤ (2 ^ 54 - 1) * 2 ^ 2044 * 1 ∧ 5 < (2 ^ 54 - 1) * 2 ^ 2044 * 2 ∧ 2 < F64.infMag := by decide +kernel

theorem test_hyp_ArithmeticIsCorrectlyRounded :
    F64.isFinite F64.one = true ∧ F64.isZero F64.one = false ∧ F64.neg F64.one = false ∧ F64.isZero 0x8000000000000000#64 = true ∧
      realOf F64.zero + realOf 0x8000000000000000#64 = 0 ∧ realOf F64.zero - realOf 0x8000000000000000#64 = 0 := by
  have h1 : F64.gridInt F64.zero = 0 := by decide
  have h2 : F64.gridInt 0x8000000000000000#64 = 0 := by decide
  refine ⟨by decide, by decide, by decide, by decide, ?_, ?_⟩ <;> simp [realOf, h1, h2]

theorem test_hyp_ComparisonsFollowTheReals :
    F64.isFinite 0x7FEFFFFFFFFFFFFF#64 = true ∧ F64.isFinite 0x8000000000000001#64 = true ∧ F64.isNaN F64.qNaN = true ∧
      F64.gt F64.one (F64.ofInt 0) = true ∧ F64.ge F64.one (F64.ofInt 255) = false := by decide +kernel

/-- Both infinities, a finite number, a zero of either sign, a negative number, a NaN that is none of them. -/
theorem test_hyp_InfinitiesAndInvalidOperands :
    F64.isInf F64.inf = true ∧ F64.isInf 0xFFF0000000000000#64 = true ∧ F64.neg F64.inf ≠ F64.neg 0xFFF0000000000000#64 ∧
      F64.isFinite F64.one = true ∧ F64.isZero F64.one = false ∧ F64.isNaN F64.one = false ∧
      F64.isFinite 0x8000000000000000#64 = true ∧ F64.isZero 0x8000000000000000#64 = true ∧ F64.isZero F64.zero = true ∧
      F64.isNaN 0x8000000000000001#64 = false ∧ F64.isZero 0x8000000000000001#64 = false ∧ F64.neg 0x8000000000000001#64 = true := by
  decide

theorem test_hyp_RenderOffsetsAreTheSpecs : 1 ≤ 441 ∧ 0 ∈ frameOffsets 2931 441 ∧ 0 < 2931 := by decide +kernel

/-- A render of no frame and one of one frame. -/
theorem test_hyp_RenderNeverFaults :
    renderScript [] 100 = some (.reset :: (frameOffsets 0 (hopSize 100)).flatMap (columnScript [])) ∧
      renderScript (List.replicate 2050 (some 5)) 100 =
        some (.reset :: (frameOffsets (List.replicate 2050 (some (5 : Int))).length (hopSize 100)).flatMap
          (columnScript (List.replicate 2050 (some 5)))) := by
  have h : (List.replicate 2050 (some (5 : Int))).all sampleFits = true := by
    rw [List.all_eq_true]
    intro x hx
    obtain rfl := List.eq_of_mem_replicate hx
    decide
  exact ⟨rfl, if_pos ⟨by decide, h⟩⟩

end Sys2Proof.Machine
end

section
/-! ### Patterns: sign and magnitude (R8) -/
namespace Sys2Proof

theorem F64.mag_lt (x : Bits64) : F64.mag x < 2 ^ 63 := Nat.mod_lt _ (by decide)

theorem F64.neg_eq_decide (x : Bits64) : F64.neg x = decide (2 ^ 63 ≤ x.toNat) := by
  have hx := x.isLt
  simp only [F64.neg, BitVec.getLsbD, Nat.testBit_eq_decide_div_mod_eq, decide_eq_decide]
  omega

theorem F64.toNat_ofMag (s : Bool) {m : Nat} (h : m < 2 ^ 63) :
    (F64.ofMag s m).toNat = if s then 2 ^ 63 + m else m := by
  cases s <;> simp only [F64.ofMag, BitVec.toNat_ofNat, Bool.false_eq_true, if_true, if_false] <;> omega

theorem F64.mag_ofMag (s : Bool) {m : Nat} (h : m < 2 ^ 63) : F64.mag (F64.ofMag s m) = m := by
  rw [F64.mag, F64.toNat_ofMag s h]
  split <;> omega

theorem F64.neg_ofMag (s : Bool) {m : Nat} (h : m < 2 ^ 63) : F64.neg (F64.ofMag s m) = s := by
  rw [F64.neg_eq_decide, F64.toNat_ofMag s h]
  cases s
  · simpa using h
  · simp

/-- Sign and magnitude determine the pattern. -/
theorem F64.ext {x y : Bits64} (hs : F64.neg x = F64.neg y) (hm : F64.mag x = F64.mag y) : x = y := by
  have hx := x.isLt
  have hy := y.isLt
  rw [F64.neg_eq_decide, F64.neg_eq_decide, decide_eq_decide] at hs
  simp only [F64.mag] at hm
  apply BitVec.eq_of_toNat_eq
  omega

theorem F64.ofMag_neg_mag (x : Bits64) : F64.ofMag (F64.neg x) (F64.mag x) = x :=
  F64.ext (F64.neg_ofMag _ (F64.mag_lt x)) (F64.mag_ofMag _ (F64.mag_lt x))

@[simp] theorem F64.neg_negate (x : Bits64) : F64.neg (F64.negate x) = !F64.neg x := by
  simp [F64.neg, F64.negate]

@[simp] theorem F64.mag_negate (x : Bits64) : F64.mag (F64.negate x) = F64.mag x := by
  have h := Nat.xor_mod_two_pow (a := x.toNat) (b := 2 ^ 63) (n := 63)
  simpa [F64.mag, F64.negate] using h

end Sys2Proof
end

section
/-! ### The grid as a function of the magnitude -/
namespace Sys2Proof

/-- `F64.grid` as a function of the magnitude, continued over the infinity and beyond: the exponent range has no end here, so
that rounding can be said before the overflow is clamped. -/
def F64.magGrid (m : Nat) : Nat := if m / 2 ^ 52 = 0 then m % 2 ^ 52 else (2 ^ 52 + m % 2 ^ 52) * 2 ^ (m / 2 ^ 52 - 1)

theorem F64.grid_eq_magGrid (x : Bits64) : F64.grid x = F64.magGrid (F64.mag x) := rfl

/-- A quotient `q` of at most 53 bits above `sh` dropped bits is the pattern `sh · 2^52 + q`, the carry to `2^53` included. -/
theorem F64.magGrid_shift {sh q : Nat} (hq : q ≤ 2 ^ 53) (hn : sh = 0 ∨ 2 ^ 52 ≤ q) :
    F64.magGrid (sh * 2 ^ 52 + q) = q * 2 ^ sh := by
  rw [F64.magGrid]
  obtain hsub | hnorm | rfl : q < 2 ^ 52 ∨ (2 ^ 52 ≤ q ∧ q < 2 ^ 53) ∨ q = 2 ^ 53 := by omega
  · obtain rfl : sh = 0 := by omega
    rw [if_pos (by omega), pow_zero, mul_one]
    omega
  · have he : (sh * 2 ^ 52 + q) / 2 ^ 52 = sh + 1 := by omega
    have hf : 2 ^ 52 + (sh * 2 ^ 52 + q) % 2 ^ 52 = q := by omega
    rw [he, hf, if_neg (Nat.succ_ne_zero sh), Nat.add_sub_cancel]
  · have he : (sh * 2 ^ 52 + 2 ^ 53) / 2 ^ 52 = sh + 1 + 1 := by omega
    have hf : 2 ^ 52 + (sh * 2 ^ 52 + 2 ^ 53) % 2 ^ 52 = 2 ^ 52 := by omega
    rw [he, hf, if_neg (Nat.succ_ne_zero _), Nat.add_sub_cancel, pow_succ 2 sh, pow_succ 2 52]
    ring

/-- The next magnitude is one unit in the last place further. -/
theorem F64.magGrid_succ (m : Nat) : F64.magGrid (m + 1) = F64.magGrid m + 2 ^ (m / 2 ^ 52 - 1) := by
  obtain ⟨sh, q, rfl, hq, hn, hsh⟩ : ∃ sh q, m = sh * 2 ^ 52 + q ∧ q < 2 ^ 53 ∧ (sh = 0 ∨ 2 ^ 52 ≤ q) ∧ m / 2 ^ 52 - 1 = sh :=
    ⟨m / 2 ^ 52 - 1, m - (m / 2 ^ 52 - 1) * 2 ^ 52, by omega, by omega, by omega, rfl⟩
  rw [hsh, add_assoc, F64.magGrid_shift hq (by omega), F64.magGrid_shift hq.le hn, Nat.succ_mul]

theorem F64.magGrid_strictMono : StrictMono F64.magGrid :=
  strictMono_nat_of_lt_succ fun m => by
    rw [F64.magGrid_succ]
    exact Nat.lt_add_of_pos_right (Nat.two_pow_pos _)

@[simp] theorem F64.magGrid_zero : F64.magGrid 0 = 0 := rfl

theorem F64.magGrid_infMag : F64.magGrid F64.infMag = 2 ^ 53 * 2 ^ 2045 := by
  have h : F64.infMag = 2045 * 2 ^ 52 + 2 ^ 53 := by decide
  rw [h, F64.magGrid_shift le_rfl (by norm_num)]

theorem F64.magGrid_maxFinite : F64.magGrid (F64.infMag - 1) = (2 ^ 53 - 1) * 2 ^ 2045 := by
  have h : F64.infMag - 1 = 2045 * 2 ^ 52 + (2 ^ 53 - 1) := by decide
  rw [h, F64.magGrid_shift (by norm_num) (by norm_num)]

/-! ### Rounding to nearest, ties to even, with no bound on the exponent -/

/-- `y` grid units lie between the neighbours `lo` and `lo + 1`, and `n` is the one rounding chooses. -/
structure F64.RoundsBetween (y : ℝ) (lo n : Nat) : Prop where
  lower : (F64.magGrid lo : ℝ) ≤ y
  upper : y < F64.magGrid (lo + 1)
  choice : (n = lo ∧ (2 * y < F64.magGrid lo + F64.magGrid (lo + 1) ∨
      2 * y = F64.magGrid lo + F64.magGrid (lo + 1) ∧ lo % 2 = 0)) ∨
    (n = lo + 1 ∧ (F64.magGrid lo + F64.magGrid (lo + 1) < 2 * y ∨
      2 * y = F64.magGrid lo + F64.magGrid (lo + 1) ∧ lo % 2 = 1))

/-- `n` is at least as near to `y` grid units as every magnitude, and even where another is as near. -/
def F64.NearestEven (y : ℝ) (n : Nat) : Prop :=
  ∀ m : Nat, |(F64.magGrid n : ℝ) - y| ≤ |(F64.magGrid m : ℝ) - y| ∧
    (|(F64.magGrid n : ℝ) - y| = |(F64.magGrid m : ℝ) - y| → m ≠ n → n % 2 = 0)

theorem F64.RoundsBetween.nearestEven {y : ℝ} {lo n : Nat} (h : F64.RoundsBetween y lo n) : F64.NearestEven y n := by
  obtain ⟨hl, hu, hc⟩ := h
  have dl : |(F64.magGrid lo : ℝ) - y| = y - F64.magGrid lo := by rw [abs_of_nonpos (by linarith)]; ring
  have du : |(F64.magGrid (lo + 1) : ℝ) - y| = F64.magGrid (lo + 1) - y := abs_of_pos (by linarith)
  -- against the two neighbours the choice decides
  have near : ∀ m, m = lo ∨ m = lo + 1 → |(F64.magGrid n : ℝ) - y| ≤ |(F64.magGrid m : ℝ) - y| ∧
      (|(F64.magGrid n : ℝ) - y| = |(F64.magGrid m : ℝ) - y| → m ≠ n → n % 2 = 0) := by
    obtain ⟨rfl, hc⟩ | ⟨rfl, hc⟩ := hc <;> rintro m (rfl | rfl)
    · exact ⟨le_rfl, fun _ hne => absurd rfl hne⟩
    · rw [dl, du]
      have hle := hc.elim le_of_lt fun h => h.1.le
      exact ⟨by linarith, fun he _ => hc.elim (fun hlt => by linarith) fun h => h.2⟩
    · rw [dl, du]
      have hle := hc.elim le_of_lt fun h => h.1.ge
      exact ⟨by linarith, fun he _ => hc.elim (fun hlt => by linarith) fun ⟨_, hodd⟩ => by omega⟩
    · exact ⟨le_rfl, fun _ hne => absurd rfl hne⟩
  -- every other magnitude is further away than the neighbour on its side
  have far : ∀ m, m < lo ∨ lo + 1 < m → |(F64.magGrid n : ℝ) - y| < |(F64.magGrid m : ℝ) - y| := by
    rintro m (hm | hm) <;> have hg : (F64.magGrid _ : ℝ) < F64.magGrid _ := Nat.cast_lt.2 (F64.magGrid_strictMono hm)
    · calc |(F64.magGrid n : ℝ) - y| ≤ |(F64.magGrid lo : ℝ) - y| := (near lo (.inl rfl)).1
        _ < y - F64.magGrid m := by linarith
        _ ≤ |(F64.magGrid m : ℝ) - y| := by rw [abs_sub_comm]; exact le_abs_self _
    · calc |(F64.magGrid n : ℝ) - y| ≤ |(F64.magGrid (lo + 1) : ℝ) - y| := (near (lo + 1) (.inr rfl)).1
        _ < F64.magGrid m - y := by linarith
        _ ≤ |(F64.magGrid m : ℝ) - y| := le_abs_self _
  intro m
  by_cases hm : m = lo ∨ m = lo + 1
  · exact near m hm
  · have h := far m (by omega)
    exact ⟨h.le, fun he => absurd he h.ne⟩

end Sys2Proof
end

section
/-! ### What `F64.roundMag` computes: the nearest-even choice, clamped at infinity (R8) -/
namespace Sys2Proof

/-- What `F64.roundMag` chooses before the overflow is clamped. -/
def F64.roundUnclamped (num den : Nat) : Nat :=
  let sh := (num / den).log2 - 52
  let d := den * 2 ^ sh
  let q := num / d
  let r := num % d
  sh * 2 ^ 52 + q + if d < 2 * r ∨ (2 * r = d ∧ q % 2 = 1) then 1 else 0

theorem F64.roundMag_eq_min (num den : Nat) : F64.roundMag num den = min (F64.roundUnclamped num den) F64.infMag := rfl

/-- The quotient `F64.roundMag` keeps has 53 bits, or nothing was dropped. -/
theorem F64.keptQuotient_bounds (t : Nat) :
    t / 2 ^ (t.log2 - 52) < 2 ^ 53 ∧ (t.log2 - 52 = 0 ∨ 2 ^ 52 ≤ t / 2 ^ (t.log2 - 52)) := by
  have hpos := Nat.two_pow_pos (t.log2 - 52)
  constructor
  · rw [Nat.div_lt_iff_lt_mul hpos, ← pow_add]
    exact Nat.lt_log2_self.trans_le (Nat.pow_le_pow_right two_pos (by omega))
  · by_cases h : t.log2 - 52 = 0
    · exact .inl h
    · refine .inr ((Nat.le_div_iff_mul_le hpos).2 ?_)
      have ht : t ≠ 0 := by rintro rfl; simp at h
      rw [← pow_add, show 52 + (t.log2 - 52) = t.log2 by omega]
      exact Nat.log2_self_le ht

/-- The dropped remainder, twice, against the divisor says on which side of the midpoint the quotient lies. -/
theorem F64.roundUnclamped_roundsBetween (num : Nat) {den : Nat} (hden : 0 < den) :
    ∃ lo, F64.RoundsBetween (num / den) lo (F64.roundUnclamped num den) := by
  obtain ⟨hq, hn⟩ := F64.keptQuotient_bounds (num / den)
  simp only [F64.roundUnclamped]
  rw [Nat.div_div_eq_div_mul] at hq hn
  generalize (num / den).log2 - 52 = sh at hq hn ⊢
  have hd : 0 < den * 2 ^ sh := Nat.mul_pos hden (Nat.two_pow_pos sh)
  have hdiv := Nat.div_add_mod num (den * 2 ^ sh)
  have hr := Nat.mod_lt num hd
  generalize num / (den * 2 ^ sh) = q at hq hn hdiv ⊢
  generalize num % (den * 2 ^ sh) = r at hr hdiv ⊢
  have hlo : F64.magGrid (sh * 2 ^ 52 + q) = q * 2 ^ sh := F64.magGrid_shift hq.le hn
  have hup : F64.magGrid (sh * 2 ^ 52 + q + 1) = (q + 1) * 2 ^ sh := by
    rw [add_assoc, F64.magGrid_shift hq (by omega)]
  have hden' : (0 : ℝ) < den := Nat.cast_pos.2 hden
  -- everything in units of `1 / den`
  have hmid : 2 * (num / den : ℝ) - (F64.magGrid (sh * 2 ^ 52 + q) + F64.magGrid (sh * 2 ^ 52 + q + 1))
      = ((2 * r : ℕ) - (den * 2 ^ sh : ℕ)) / den := by
    rw [hlo, hup, ← hdiv]
    push_cast
    field_simp
    ring
  refine ⟨sh * 2 ^ 52 + q, ?_, ?_, ?_⟩
  · rw [hlo, le_div_iff₀ hden']
    norm_cast
    rw [← hdiv]
    nlinarith
  · rw [hup, div_lt_iff₀ hden']
    norm_cast
    rw [← hdiv]
    nlinarith
  · obtain h | h | h := lt_trichotomy (2 * r) (den * 2 ^ sh)
    · refine .inl ⟨?_, .inl (sub_neg.1 ?_)⟩
      · rw [if_neg (by omega), add_zero]
      · rw [hmid]
        exact div_neg_of_neg_of_pos (sub_neg.2 (Nat.cast_lt.2 h)) hden'
    · have htie : 2 * (num / den : ℝ) = F64.magGrid (sh * 2 ^ 52 + q) + F64.magGrid (sh * 2 ^ 52 + q + 1) := by
        rw [← sub_eq_zero, hmid, h, sub_self, zero_div]
      by_cases hodd : q % 2 = 1
      · exact .inr ⟨by rw [if_pos (.inr ⟨h, hodd⟩)], .inr ⟨htie, by omega⟩⟩
      · exact .inl ⟨by rw [if_neg (by omega), add_zero], .inr ⟨htie, by omega⟩⟩
    · refine .inr ⟨?_, .inl (sub_pos.1 ?_)⟩
      · rw [if_pos (.inl h)]
      · rw [hmid]
        exact div_pos (sub_pos.2 (Nat.cast_lt.2 h)) hden'

theorem F64.roundUnclamped_nearestEven (num : Nat) {den : Nat} (hden : 0 < den) :
    F64.NearestEven (num / den) (F64.roundUnclamped num den) :=
  (F64.roundUnclamped_roundsBetween num hden).choose_spec.nearestEven

/-- The overflow threshold in grid units: half a unit in the last place above the largest finite magnitude. -/
theorem F64.midpoint_maxFinite_infMag :
    ((F64.magGrid (F64.infMag - 1) : ℝ) + F64.magGrid F64.infMag) = 2 * ((2 ^ 54 - 1) * 2 ^ 2044) := by
  rw [F64.magGrid_infMag, F64.magGrid_maxFinite, show 2045 = 2044 + 1 from rfl]
  generalize 2044 = k
  rw [pow_succ 2 k]
  push_cast [Nat.one_le_two_pow]
  ring

/-- Rounding overflows from half a unit above the largest finite magnitude on. -/
theorem F64.NearestEven.infMag_le_iff {y : ℝ} {n : Nat} (h : F64.NearestEven y n) :
    F64.infMag ≤ n ↔ (2 ^ 54 - 1) * 2 ^ 2044 ≤ y := by
  have hmid := F64.midpoint_maxFinite_infMag
  have hlt : (F64.magGrid (F64.infMag - 1) : ℝ) < F64.magGrid F64.infMag :=
    Nat.cast_lt.2 (F64.magGrid_strictMono (by decide))
  generalize ((2 ^ 54 - 1) * 2 ^ 2044 : ℝ) = T at hmid ⊢
  constructor
  · intro hn
    by_contra hy
    have hg : (F64.magGrid F64.infMag : ℝ) ≤ F64.magGrid n := Nat.cast_le.2 (F64.magGrid_strictMono.monotone hn)
    have hnear : |(F64.magGrid (F64.infMag - 1) : ℝ) - y| < F64.magGrid n - y :=
      abs_lt.2 ⟨by linarith, by linarith⟩
    exact absurd (h (F64.infMag - 1)).1 (not_le.2 (hnear.trans_le (le_abs_self _)))
  · intro hy
    by_contra hn
    have hg : (F64.magGrid n : ℝ) ≤ F64.magGrid (F64.infMag - 1) :=
      Nat.cast_le.2 (F64.magGrid_strictMono.monotone (by omega))
    obtain ⟨hle, htie⟩ := h F64.infMag
    have hinf : |(F64.magGrid F64.infMag : ℝ) - y| ≤ y - F64.magGrid (F64.infMag - 1) :=
      abs_le.2 ⟨by linarith, by linarith⟩
    have hself : y - F64.magGrid n ≤ |(F64.magGrid n : ℝ) - y| := by rw [abs_sub_comm]; exact le_abs_self _
    have hmax : F64.infMag - 1 ≤ n := by
      rw [← F64.magGrid_strictMono.le_iff_le, ← Nat.cast_le (α := ℝ)]
      linarith
    have heven := htie (le_antisymm hle (by linarith)) (by omega)
    have hodd : (F64.infMag - 1) % 2 = 1 := by decide
    obtain rfl : n = F64.infMag - 1 := by omega
    omega

/-- Below the overflow the clamp leaves the nearest magnitude. -/
theorem F64.roundMag_nearestEven {num den : Nat} (hden : 0 < den) (h : F64.roundMag num den ≠ F64.infMag) :
    F64.NearestEven (num / den) (F64.roundMag num den) := by
  rw [F64.roundMag_eq_min] at h ⊢
  rw [min_eq_left (by omega)]
  exact F64.roundUnclamped_nearestEven num hden

theorem F64.roundMag_eq_infMag_iff (num : Nat) {den : Nat} (hden : 0 < den) :
    F64.roundMag num den = F64.infMag ↔ (2 ^ 54 - 1) * 2 ^ 2044 * den ≤ num := by
  rw [F64.roundMag_eq_min, min_eq_right_iff, (F64.roundUnclamped_nearestEven num hden).infMag_le_iff,
    le_div_iff₀ (Nat.cast_pos.2 hden), ← Nat.cast_le (α := ℝ)]
  generalize 2044 = k
  norm_num

theorem F64.grid_ofMag (s : Bool) {m : Nat} (h : m < 2 ^ 63) : F64.grid (F64.ofMag s m) = F64.magGrid m := by
  rw [F64.grid_eq_magGrid, F64.mag_ofMag s h]

/-- A distance between grid units and a quotient, cleared of the denominator. -/
theorem F64.cast_abs_mul_sub (g num : Nat) {den : Nat} (hden : 0 < den) :
    ((|(g * den : Int) - num| : Int) : ℝ) = |(g : ℝ) - num / den| * den := by
  have hden' : (0 : ℝ) < den := Nat.cast_pos.2 hden
  push_cast
  rw [← abs_of_pos hden', ← abs_mul, abs_of_pos hden', sub_mul, div_mul_cancel₀ _ hden'.ne']

/-- Settles O54: the nearest-even choice of the unclamped rounding, and the overflow threshold where the clamp sets in. -/
theorem roundingIsToNearestEven : Obligations.RoundingIsToNearestEven := by
  intro num den hden
  have hden' : (0 : ℝ) < den := Nat.cast_pos.2 hden
  refine ⟨F64.roundMag_eq_infMag_iff num hden, fun hlt m hm => ?_⟩
  have hfin : F64.roundMag num den ≠ F64.infMag := fun h =>
    absurd ((F64.roundMag_eq_infMag_iff num hden).1 h) (not_le.2 hlt)
  have hbound : F64.roundMag num den ≤ F64.infMag := min_le_right _ _
  have hinf : F64.infMag < 2 ^ 63 := by decide
  obtain ⟨hle, htie⟩ := F64.roundMag_nearestEven hden hfin m
  rw [F64.grid_ofMag _ (hm.trans hinf), F64.grid_ofMag _ (hbound.trans_lt hinf), ← Int.cast_le (R := ℝ),
    ← Int.cast_inj (α := ℝ), F64.cast_abs_mul_sub _ _ hden, F64.cast_abs_mul_sub _ _ hden,
    mul_le_mul_iff_of_pos_right hden', mul_left_inj' hden'.ne']
  exact ⟨hle, htie⟩

end Sys2Proof
end

section
/-! ### Classes of patterns -/
namespace Sys2Proof

theorem F64.isNaN_iff {x : Bits64} : F64.isNaN x = true ↔ F64.infMag < F64.mag x := decide_eq_true_iff
theorem F64.isInf_iff {x : Bits64} : F64.isInf x = true ↔ F64.mag x = F64.infMag := decide_eq_true_iff
theorem F64.isFinite_iff {x : Bits64} : F64.isFinite x = true ↔ F64.mag x < F64.infMag := decide_eq_true_iff
theorem F64.isZero_iff {x : Bits64} : F64.isZero x = true ↔ F64.mag x = 0 := decide_eq_true_iff

@[simp] theorem F64.isNaN_negate (x : Bits64) : F64.isNaN (F64.negate x) = F64.isNaN x := by simp [F64.isNaN]
@[simp] theorem F64.isInf_negate (x : Bits64) : F64.isInf (F64.negate x) = F64.isInf x := by simp [F64.isInf]
@[simp] theorem F64.isFinite_negate (x : Bits64) : F64.isFinite (F64.negate x) = F64.isFinite x := by simp [F64.isFinite]
@[simp] theorem F64.isZero_negate (x : Bits64) : F64.isZero (F64.negate x) = F64.isZero x := by simp [F64.isZero]

@[simp] theorem F64.isNaN_qNaN : F64.isNaN F64.qNaN = true := by decide

theorem F64.isNaN_of_isFinite {x : Bits64} (h : F64.isFinite x = true) : F64.isNaN x = false :=
  decide_eq_false (F64.isFinite_iff.1 h).not_gt

theorem F64.isInf_of_isFinite {x : Bits64} (h : F64.isFinite x = true) : F64.isInf x = false :=
  decide_eq_false (F64.isFinite_iff.1 h).ne

theorem F64.isNaN_of_isInf {x : Bits64} (h : F64.isInf x = true) : F64.isNaN x = false :=
  decide_eq_false (F64.isInf_iff.1 h).not_gt

theorem F64.isZero_of_isInf {x : Bits64} (h : F64.isInf x = true) : F64.isZero x = false :=
  decide_eq_false (by rw [F64.isInf_iff.1 h]; decide)

theorem F64.isFinite_of_isZero {x : Bits64} (h : F64.isZero x = true) : F64.isFinite x = true :=
  F64.isFinite_iff.2 (by rw [F64.isZero_iff.1 h]; decide)

theorem F64.unit_pos : 0 < F64.unit := by
  rw [F64.unit]
  positivity

theorem F64.grid_pos {x : Bits64} (h : F64.isZero x = false) : 0 < F64.grid x := by
  rw [F64.grid_eq_magGrid, ← F64.magGrid_zero, F64.magGrid_strictMono.lt_iff_lt]
  exact Nat.pos_of_ne_zero (of_decide_eq_false h)

@[simp] theorem F64.isInf_ofMag_infMag (s : Bool) : F64.isInf (F64.ofMag s F64.infMag) = true :=
  F64.isInf_iff.2 (F64.mag_ofMag s (by decide))

@[simp] theorem F64.isZero_ofMag_zero (s : Bool) : F64.isZero (F64.ofMag s 0) = true :=
  F64.isZero_iff.2 (F64.mag_ofMag s (by decide))

@[simp] theorem F64.neg_ofMag_infMag (s : Bool) : F64.neg (F64.ofMag s F64.infMag) = s := F64.neg_ofMag s (by decide)

@[simp] theorem F64.neg_ofMag_zero (s : Bool) : F64.neg (F64.ofMag s 0) = s := F64.neg_ofMag s (by decide)

/-! ### The operations, class by class -/

theorem F64.add_eq_qNaN {a b : Bits64} (h : F64.isNaN a = true ∨ F64.isNaN b = true) : F64.add a b = F64.qNaN :=
  if_pos (Bool.or_eq_true_iff.2 h)

theorem F64.mul_eq_qNaN {a b : Bits64} (h : F64.isNaN a = true ∨ F64.isNaN b = true) : F64.mul a b = F64.qNaN :=
  if_pos (Bool.or_eq_true_iff.2 h)

theorem F64.div_eq_qNaN {a b : Bits64} (h : F64.isNaN a = true ∨ F64.isNaN b = true) : F64.div a b = F64.qNaN :=
  if_pos (Bool.or_eq_true_iff.2 h)

theorem F64.sub_eq_qNaN {a b : Bits64} (h : F64.isNaN a = true ∨ F64.isNaN b = true) : F64.sub a b = F64.qNaN :=
  F64.add_eq_qNaN (by rwa [F64.isNaN_negate])

theorem F64.sqrt_eq_qNaN {a : Bits64} (h : F64.isNaN a = true) : F64.sqrt a = F64.qNaN := if_pos h

section Finite
variable {a b : Bits64} (ha : F64.isFinite a = true) (hb : F64.isFinite b = true)
include ha hb

theorem F64.add_of_isFinite : F64.add a b =
    if F64.gridInt a + F64.gridInt b = 0 then F64.ofMag (F64.neg a && F64.neg b) 0
    else F64.round (decide (F64.gridInt a + F64.gridInt b < 0)) (F64.gridInt a + F64.gridInt b).natAbs 1 := by
  simp [F64.add, F64.isNaN_of_isFinite, F64.isInf_of_isFinite, ha, hb]

theorem F64.mul_of_isFinite :
    F64.mul a b = F64.round (F64.neg a != F64.neg b) (F64.grid a * F64.grid b) F64.unit := by
  simp [F64.mul, F64.isNaN_of_isFinite, F64.isInf_of_isFinite, ha, hb]

theorem F64.div_of_isFinite (h0 : F64.isZero b = false) :
    F64.div a b = F64.round (F64.neg a != F64.neg b) (F64.grid a * F64.unit) (F64.grid b) := by
  simp [F64.div, F64.isNaN_of_isFinite, F64.isInf_of_isFinite, ha, hb, h0]

theorem F64.div_zero (h0 : F64.isZero b = true) :
    F64.div a b = if F64.isZero a then F64.qNaN else F64.ofMag (F64.neg a != F64.neg b) F64.infMag := by
  simp [F64.div, F64.isNaN_of_isFinite, F64.isInf_of_isFinite, ha, hb, h0]

end Finite

section Infinite
variable {a b : Bits64} (ha : F64.isInf a = true)
include ha

theorem F64.inf_add_of_isFinite (hb : F64.isFinite b = true) : F64.add a b = a := by
  simp [F64.add, F64.isNaN_of_isFinite, F64.isInf_of_isFinite, F64.isNaN_of_isInf, ha, hb]

theorem F64.add_inf_of_isFinite (hb : F64.isFinite b = true) : F64.add b a = a := by
  simp [F64.add, F64.isNaN_of_isFinite, F64.isInf_of_isFinite, F64.isNaN_of_isInf, ha, hb]

theorem F64.inf_add_inf (hb : F64.isInf b = true) :
    F64.add a b = if F64.neg a = F64.neg b then a else F64.qNaN := by
  simp [F64.add, F64.isNaN_of_isInf, ha, hb]

theorem F64.inf_div_of_isFinite (hb : F64.isFinite b = true) :
    F64.div a b = F64.ofMag (F64.neg a != F64.neg b) F64.infMag := by
  simp [F64.div, F64.isNaN_of_isFinite, F64.isInf_of_isFinite, F64.isNaN_of_isInf, ha, hb]

theorem F64.div_inf_of_isFinite (hb : F64.isFinite b = true) :
    F64.div b a = F64.ofMag (F64.neg a != F64.neg b) 0 := by
  simp [F64.div, F64.isNaN_of_isFinite, F64.isInf_of_isFinite, F64.isNaN_of_isInf, ha, hb, bne_comm]

theorem F64.inf_div_inf (hb : F64.isInf b = true) : F64.div a b = F64.qNaN := by
  simp [F64.div, F64.isNaN_of_isInf, ha, hb]

/-- An infinity times any number but a NaN. -/
theorem F64.inf_mul (hb : F64.isNaN b = false) :
    F64.mul a b = if F64.isZero b then F64.qNaN else F64.ofMag (F64.neg a != F64.neg b) F64.infMag := by
  simp [F64.mul, F64.isNaN_of_isInf, F64.isZero_of_isInf, ha, hb]

end Infinite

theorem F64.mul_comm (a b : Bits64) : F64.mul a b = F64.mul b a := by
  simp only [F64.mul, Bool.or_comm, Nat.mul_comm, bne_comm]

theorem F64.sqrt_of_isZero {a : Bits64} (h : F64.isZero a = true) : F64.sqrt a = a := by
  simp [F64.sqrt, h, F64.isNaN_of_isFinite (F64.isFinite_of_isZero h)]

theorem F64.sqrt_of_neg {a : Bits64} (hz : F64.isZero a = false) (hs : F64.neg a = true) : F64.sqrt a = F64.qNaN := by
  simp [F64.sqrt, hz, hs]

theorem F64.sqrt_of_isFinite {a : Bits64} (ha : F64.isFinite a = true) (hz : F64.isZero a = false) (hs : F64.neg a = false) :
    F64.sqrt a = F64.round false (2 * F64.isqrt (F64.grid a * F64.unit) +
      if F64.isqrt (F64.grid a * F64.unit) * F64.isqrt (F64.grid a * F64.unit) = F64.grid a * F64.unit then 0 else 1) 2 := by
  simp [F64.sqrt, F64.isNaN_of_isFinite, F64.isInf_of_isFinite, ha, hz, hs]

theorem F64.gt_iff_key_lt {a b : Bits64} (ha : F64.isNaN a = false) (hb : F64.isNaN b = false) :
    F64.gt a b = true ↔ F64.key b < F64.key a := by simp [F64.gt, ha, hb]

theorem F64.ge_iff_key_le {a b : Bits64} (ha : F64.isNaN a = false) (hb : F64.isNaN b = false) :
    F64.ge a b = true ↔ F64.key b ≤ F64.key a := by simp [F64.ge, ha, hb]

theorem F64.abs_key (x : Bits64) : |F64.key x| = F64.mag x := by
  rw [F64.key]
  split <;> simp

theorem F64.key_lt_infMag {x : Bits64} (h : F64.isFinite x = true) :
    -(F64.infMag : Int) < F64.key x ∧ F64.key x < F64.infMag := by
  rw [← abs_lt, F64.abs_key]
  exact_mod_cast F64.isFinite_iff.1 h

/-- Settles O59: each clause is the rule of the operation for those classes of operands. -/
theorem infinitiesAndInvalidOperands : Obligations.InfinitiesAndInvalidOperands := by
  refine ⟨fun a b ha hb => ?_, fun a b ha hb => ?_, fun a b ha hb hz => ?_, fun a b ha hz => ?_, fun a _ hz hs => ?_, by decide,
    fun a ha => ?_⟩
  · rw [F64.inf_add_of_isFinite ha hb, F64.add_inf_of_isFinite ha hb, F64.sub, F64.sub, F64.inf_div_of_isFinite ha hb,
      F64.div_inf_of_isFinite ha hb, F64.mul_comm b, F64.inf_mul ha (F64.isNaN_of_isFinite hb),
      F64.inf_add_of_isFinite ha ((F64.isFinite_negate b).trans hb),
      F64.add_inf_of_isFinite ((F64.isInf_negate a).trans ha) hb]
    refine ⟨rfl, rfl, rfl, rfl, ⟨by simp, by simp⟩, ⟨by simp, by simp⟩, fun hz => ?_⟩
    simp [hz]
  · rw [F64.sub, F64.inf_add_inf ha hb, F64.inf_add_inf ha ((F64.isInf_negate b).trans hb), F64.inf_div_inf ha hb,
      F64.neg_negate]
    refine ⟨fun hs => ?_, fun hs => ?_, F64.isNaN_qNaN⟩
    · simp [hs]
    · simp [Bool.eq_not.2 hs]
  · rw [F64.mul_comm b, F64.inf_mul ha hb, if_neg (by simp [hz])]
    simp
  · rw [F64.div_zero ha (F64.isFinite_of_isZero hz) hz]
    refine ⟨fun h0 => ?_, fun h0 => ?_⟩ <;> simp [h0]
  · rw [F64.sqrt_of_neg hz hs, F64.isNaN_qNaN]
  · have hn := F64.isNaN_of_isFinite ha
    have hk := F64.key_lt_infMag ha
    have hp : F64.key F64.inf = F64.infMag := by decide
    have hm : F64.key (F64.negate F64.inf) = -F64.infMag := by decide
    rw [F64.gt_iff_key_lt (by decide) hn, F64.gt_iff_key_lt hn (by decide), F64.ge_iff_key_le (by decide) hn,
      ← Bool.not_eq_true, F64.ge_iff_key_le hn (by decide), hp, hm]
    omega

end Sys2Proof
end

section
/-! ### The real number a pattern stands for -/
namespace Sys2Proof.Machine

/-- A magnitude in grid units with a sign. -/
def signed {α : Type} [Neg α] (s : Bool) (x : α) : α := if s then -x else x

theorem signed_sub_abs (s : Bool) (x y : ℝ) : |signed s x - signed s y| = |x - y| := by
  cases s
  · rfl
  · rw [signed, signed, if_pos rfl, if_pos rfl, neg_sub_neg, abs_sub_comm]

theorem abs_signed (s : Bool) (x : ℝ) : |signed s x| = |x| := by cases s <;> simp [signed]

theorem signed_not (s : Bool) (x : ℝ) : signed (!s) x = -signed s x := by cases s <;> simp [signed]

theorem signed_add (s : Bool) (x y : ℝ) : signed s (x + y) = signed s x + signed s y := by
  cases s <;> simp [signed, add_comm]

theorem signed_mul_signed (s t : Bool) (x y : ℝ) : signed s x * signed t y = signed (s != t) (x * y) := by
  cases s <;> cases t <;> simp [signed]

theorem signed_div_signed (s t : Bool) (x y : ℝ) : signed s x / signed t y = signed (s != t) (x / y) := by
  cases s <;> cases t <;> simp [signed, div_neg, neg_div]

theorem signed_div (s : Bool) (x y : ℝ) : signed s x / y = signed s (x / y) := by
  cases s <;> simp [signed, neg_div]

theorem cast_unit : ((F64.unit : ℕ) : ℝ) = 2 ^ 1074 := by rw [F64.unit, Nat.cast_pow, Nat.cast_ofNat]

theorem realOf_eq_signed (x : Bits64) : realOf x = signed (F64.neg x) (F64.magGrid (F64.mag x) : ℝ) / 2 ^ 1074 := by
  rw [realOf, F64.gridInt, F64.grid_eq_magGrid, signed]
  split <;> simp

theorem realOf_eq_signed_div (x : Bits64) : realOf x = signed (F64.neg x) ((F64.grid x : ℝ) / 2 ^ 1074) := by
  rw [realOf_eq_signed, signed_div, F64.grid_eq_magGrid]

theorem realOf_negate (x : Bits64) : realOf (F64.negate x) = -realOf x := by
  rw [realOf_eq_signed, realOf_eq_signed, F64.neg_negate, F64.mag_negate, signed_not, neg_div]

/-- Sign and magnitude order the grid values as they order the keys. -/
theorem gridInt_lt_gridInt_iff (a b : Bits64) : F64.gridInt a < F64.gridInt b ↔ F64.key a < F64.key b := by
  have hlt := F64.magGrid_strictMono.lt_iff_lt (a := F64.mag a) (b := F64.mag b)
  have hgt := F64.magGrid_strictMono.lt_iff_lt (a := F64.mag b) (b := F64.mag a)
  have ha := F64.magGrid_strictMono.lt_iff_lt (a := 0) (b := F64.mag a)
  have hb := F64.magGrid_strictMono.lt_iff_lt (a := 0) (b := F64.mag b)
  rw [F64.magGrid_zero] at ha hb
  simp only [F64.gridInt, F64.key, F64.grid_eq_magGrid]
  cases F64.neg a <;> cases F64.neg b <;> simp only [if_true, if_false, Bool.false_eq_true] <;> omega

theorem realOf_lt_realOf_iff (a b : Bits64) : realOf a < realOf b ↔ F64.key a < F64.key b := by
  rw [realOf, realOf, div_lt_div_iff_of_pos_right (by positivity), Int.cast_lt, gridInt_lt_gridInt_iff]

theorem realOf_le_realOf_iff (a b : Bits64) : realOf a ≤ realOf b ↔ F64.key a ≤ F64.key b := by
  rw [← not_lt, realOf_lt_realOf_iff, not_lt]

theorem truncToNat_eq_floor {v : Bits64} (h : F64.neg v = false) : F64.truncToNat v = ⌊realOf v⌋₊ := by
  have hr : realOf v = (F64.grid v : ℝ) / (F64.unit : ℕ) := by
    rw [realOf, F64.gridInt, h, if_neg Bool.false_ne_true, Int.cast_natCast, cast_unit]
  rw [hr, Nat.floor_div_eq_div, F64.truncToNat, h, if_neg Bool.false_ne_true]

theorem gt_of_isNaN {a b : Bits64} (h : F64.isNaN a = true ∨ F64.isNaN b = true) : F64.gt a b = false := by
  obtain h | h := h <;> simp [F64.gt, h]

theorem ge_of_isNaN {a b : Bits64} (h : F64.isNaN a = true ∨ F64.isNaN b = true) : F64.ge a b = false := by
  obtain h | h := h <;> simp [F64.ge, h]

theorem neg_of_gt_zero {v : Bits64} (h : F64.gt v (F64.ofInt 0) = true) : F64.neg v = false := by
  have h0 : F64.key (F64.ofInt 0) = 0 := by decide +kernel
  simp only [F64.gt, h0, Bool.and_eq_true, decide_eq_true_eq] at h
  by_contra hs
  rw [F64.key, if_pos (Bool.eq_true_of_not_eq_false hs)] at h
  omega

/-- Settles O56: the comparisons go by the keys, which order the patterns as the reals are ordered. -/
theorem comparisonsFollowTheReals : Obligations.ComparisonsFollowTheReals := by
  refine ⟨fun a b ha hb => ?_, fun a b h => ?_, fun a h => ?_, fun v h _ => truncToNat_eq_floor (neg_of_gt_zero h)⟩
  · rw [F64.gt_iff_key_lt (F64.isNaN_of_isFinite ha) (F64.isNaN_of_isFinite hb),
      F64.ge_iff_key_le (F64.isNaN_of_isFinite ha) (F64.isNaN_of_isFinite hb), realOf_lt_realOf_iff, realOf_le_realOf_iff]
    exact ⟨Iff.rfl, Iff.rfl⟩
  · rw [gt_of_isNaN h, ge_of_isNaN h, F64.add_eq_qNaN h, F64.sub_eq_qNaN h, F64.mul_eq_qNaN h, F64.div_eq_qNaN h]
    simp
  · rw [F64.sqrt_eq_qNaN h, F64.isNaN_qNaN]

end Sys2Proof.Machine
end

section
/-! ### From magnitudes to signed reals: one rounding for every operation -/
namespace Sys2Proof.Machine

theorem realOf_ofMag (s : Bool) {m : Nat} (h : m < 2 ^ 63) :
    realOf (F64.ofMag s m) = signed s (F64.magGrid m : ℝ) / 2 ^ 1074 := by
  rw [realOf_eq_signed, F64.neg_ofMag s h, F64.mag_ofMag s h]

/-- No pattern is nearer to `± y` than some magnitude is to `y`: the pattern's own, or zero if its sign is the other one. -/
theorem exists_mag_nearer (s : Bool) {y : ℝ} (hy : 0 ≤ y) (w : Bits64) :
    ∃ m : Nat, |(F64.magGrid m : ℝ) - y| ≤ |signed (F64.neg w) (F64.magGrid (F64.mag w) : ℝ) - signed s y| ∧
      (|(F64.magGrid m : ℝ) - y| = |signed (F64.neg w) (F64.magGrid (F64.mag w) : ℝ) - signed s y| →
        signed s (F64.magGrid m : ℝ) = signed (F64.neg w) (F64.magGrid (F64.mag w) : ℝ)) := by
  by_cases hs : F64.neg w = s
  · refine ⟨F64.mag w, ?_⟩
    rw [hs, signed_sub_abs]
    exact ⟨le_rfl, fun _ => rfl⟩
  · have hg : (0 : ℝ) ≤ F64.magGrid (F64.mag w) := Nat.cast_nonneg _
    refine ⟨0, ?_⟩
    rw [Bool.eq_not.2 hs, signed_not, ← neg_add', abs_neg, F64.magGrid_zero, Nat.cast_zero, zero_sub, abs_neg, abs_of_nonneg hy]
    have hsum : |signed s (F64.magGrid (F64.mag w) : ℝ) + signed s y| = F64.magGrid (F64.mag w) + y := by
      rw [← signed_add, abs_signed, abs_of_nonneg (by positivity)]
    rw [hsum]
    refine ⟨by linarith, fun h => ?_⟩
    rw [show (F64.magGrid (F64.mag w) : ℝ) = 0 by linarith]
    cases s <;> simp [signed]

theorem eq_true_iff_signed_div_lt_zero {s : Bool} {y d : ℝ} (hy : 0 < y) (hd : 0 < d) : s = true ↔ signed s y / d < 0 := by
  have h := div_pos hy hd
  cases s <;> simp [signed, neg_div, h, h.le]

/-- The nearest magnitude with a sign, clamped at infinity, is the rounding of the signed real number. -/
theorem roundsTo_ofMag (s : Bool) {y : ℝ} {n : Nat} (hy : 0 ≤ y) (h : F64.NearestEven y n) :
    RoundsTo (signed s y / 2 ^ 1074) (F64.ofMag s (min n F64.infMag)) := by
  have hU : (0 : ℝ) < 2 ^ 1074 := by positivity
  have hinf : F64.infMag < 2 ^ 63 := by decide
  have habs : |signed s y / 2 ^ 1074| = y / 2 ^ 1074 := by rw [abs_div, abs_signed, abs_of_nonneg hy, abs_of_pos hU]
  have hover : (2 ^ 54 - 1) * 2 ^ 970 ≤ |signed s y / 2 ^ 1074| ↔ F64.infMag ≤ n := by
    rw [habs, le_div_iff₀ hU, mul_assoc, ← pow_add, h.infMag_le_iff]
  refine ⟨fun hlt => ?_, fun hle => ?_, fun h0 => ?_⟩
  · have hn : n < F64.infMag := not_le.1 fun hle => hlt.not_ge (hover.2 hle)
    have hn' := hn.trans hinf
    rw [min_eq_left hn.le, F64.isFinite_iff, F64.mag_ofMag s hn']
    refine ⟨hn, fun w _ => ?_⟩
    obtain ⟨m, hm, hmeq⟩ := exists_mag_nearer s hy w
    obtain ⟨hnm, htie⟩ := h m
    rw [realOf_ofMag s hn', realOf_eq_signed w, ← sub_div, ← sub_div, abs_div, abs_div, signed_sub_abs,
      div_le_div_iff_of_pos_right (abs_pos.2 hU.ne'), div_left_inj' (abs_pos.2 hU.ne').ne', Ne, div_left_inj' hU.ne']
    refine ⟨hnm.trans hm, fun he hne => htie (le_antisymm hnm (hm.trans_eq he.symm)) ?_⟩
    rintro rfl
    exact hne (hmeq he).symm
  · rw [min_eq_right (hover.1 hle), F64.isInf_ofMag_infMag]
  · have hy' : 0 < y := lt_of_le_of_ne hy (by rintro rfl; exact h0 (by cases s <;> simp [signed]))
    rw [F64.neg_ofMag s ((min_le_right _ _).trans_lt hinf)]
    exact eq_true_iff_signed_div_lt_zero hy' hU

theorem roundsTo_round (s : Bool) (num : Nat) {den : Nat} (hden : 0 < den) :
    RoundsTo (signed s (num / den : ℝ) / 2 ^ 1074) (F64.round s num den) :=
  roundsTo_ofMag s (by positivity) (F64.roundUnclamped_nearestEven num hden)

theorem neg_round (s : Bool) (num den : Nat) : F64.neg (F64.round s num den) = s :=
  F64.neg_ofMag s ((min_le_right _ _).trans_lt (by decide))

theorem nearestEven_zero : F64.NearestEven 0 0 := fun m => by simp

theorem roundsTo_zero (s : Bool) : RoundsTo 0 (F64.ofMag s 0) := by
  have h := roundsTo_ofMag s le_rfl nearestEven_zero
  rwa [show signed s (0 : ℝ) / 2 ^ 1074 = 0 by cases s <;> simp [signed], Nat.zero_min] at h

theorem eq_signed_natAbs (v : Int) : (v : ℝ) = signed (decide (v < 0)) (v.natAbs : ℝ) := by
  rw [Nat.cast_natAbs, signed]
  split
  case isTrue h => rw [abs_of_neg (of_decide_eq_true h), Int.cast_neg, neg_neg]
  case isFalse h => rw [abs_of_nonneg (not_lt.1 fun hv => h (decide_eq_true hv))]

/-! ### Addition, subtraction, multiplication, division, integers -/

theorem roundsTo_ofInt (v : Int) : RoundsTo v (F64.ofInt v) := by
  have h := roundsTo_round (decide (v < 0)) (v.natAbs * F64.unit) one_pos
  rwa [Nat.cast_one, div_one, Nat.cast_mul, cast_unit, signed_div, mul_div_cancel_right₀ _ (by positivity), ← eq_signed_natAbs] at h

theorem realOf_add_realOf (a b : Bits64) : realOf a + realOf b = (F64.gridInt a + F64.gridInt b : Int) / 2 ^ 1074 := by
  rw [realOf, realOf, ← add_div, Int.cast_add]

theorem realOf_add_realOf_eq_zero_iff (a b : Bits64) : realOf a + realOf b = 0 ↔ F64.gridInt a + F64.gridInt b = 0 := by
  rw [realOf_add_realOf, div_eq_zero_iff, or_iff_left (by positivity), Int.cast_eq_zero]

section Finite
variable {a b : Bits64} (ha : F64.isFinite a = true) (hb : F64.isFinite b = true)
include ha hb

theorem roundsTo_add : RoundsTo (realOf a + realOf b) (F64.add a b) := by
  rw [F64.add_of_isFinite ha hb]
  split
  case isTrue h =>
    rw [(realOf_add_realOf_eq_zero_iff a b).2 h]
    exact roundsTo_zero _
  case isFalse h =>
    rw [realOf_add_realOf, eq_signed_natAbs]
    simpa only [Nat.cast_one, div_one] using
      roundsTo_round (decide (F64.gridInt a + F64.gridInt b < 0)) (F64.gridInt a + F64.gridInt b).natAbs one_pos

theorem neg_add_of_sum_zero (h : realOf a + realOf b = 0) : F64.neg (F64.add a b) = (F64.neg a && F64.neg b) := by
  rw [F64.add_of_isFinite ha hb, if_pos ((realOf_add_realOf_eq_zero_iff a b).1 h), F64.neg_ofMag_zero]

theorem roundsTo_sub : RoundsTo (realOf a - realOf b) (F64.sub a b) := by
  rw [sub_eq_add_neg, ← realOf_negate]
  exact roundsTo_add ha ((F64.isFinite_negate b).trans hb)

theorem neg_sub_of_difference_zero (h : realOf a - realOf b = 0) : F64.neg (F64.sub a b) = (F64.neg a && !F64.neg b) := by
  rw [sub_eq_add_neg, ← realOf_negate] at h
  rw [F64.sub, neg_add_of_sum_zero ha ((F64.isFinite_negate b).trans hb) h, F64.neg_negate]

theorem roundsTo_mul : RoundsTo (realOf a * realOf b) (F64.mul a b) := by
  have h := roundsTo_round (F64.neg a != F64.neg b) (F64.grid a * F64.grid b) F64.unit_pos
  rw [cast_unit, Nat.cast_mul, signed_div] at h
  rwa [F64.mul_of_isFinite ha hb, realOf_eq_signed_div, realOf_eq_signed_div, signed_mul_signed, div_mul_div_comm, ← div_div]

theorem roundsTo_div (h0 : F64.isZero b = false) : RoundsTo (realOf a / realOf b) (F64.div a b) := by
  have h := roundsTo_round (F64.neg a != F64.neg b) (F64.grid a * F64.unit) (F64.grid_pos h0)
  rw [Nat.cast_mul, cast_unit, signed_div, mul_div_right_comm, mul_div_cancel_right₀ _ (by positivity)] at h
  rwa [F64.div_of_isFinite ha hb h0, realOf_eq_signed_div, realOf_eq_signed_div, signed_div_signed,
    div_div_div_cancel_right₀ (by positivity)]

theorem neg_mul_of_isFinite : F64.neg (F64.mul a b) = (F64.neg a != F64.neg b) := by
  rw [F64.mul_of_isFinite ha hb, neg_round]

theorem neg_div_of_isFinite (h0 : F64.isZero b = false) : F64.neg (F64.div a b) = (F64.neg a != F64.neg b) := by
  rw [F64.div_of_isFinite ha hb h0, neg_round]

end Finite

end Sys2Proof.Machine
end

section
/-! ### The square root: a last bit that stands for the rest of an irrational root -/
namespace Sys2Proof.Machine

/-- The loop keeps `r ≤ √k < r + 2^b`. -/
theorem isqrtFrom_bounds (k b r : Nat) (hlo : r * r ≤ k) (hhi : k < (r + 2 ^ b) * (r + 2 ^ b)) :
    F64.isqrtFrom k b r * F64.isqrtFrom k b r ≤ k ∧ k < (F64.isqrtFrom k b r + 1) * (F64.isqrtFrom k b r + 1) := by
  induction b generalizing r with
  | zero => exact ⟨hlo, hhi⟩
  | succ b ih =>
    rw [F64.isqrtFrom]
    split
    case isTrue h => exact ih _ h (by rwa [add_assoc, ← two_mul, ← pow_succ'])
    case isFalse h => exact ih r hlo (not_le.1 h)

theorem isqrt_eq_sqrt (k : Nat) : F64.isqrt k = Nat.sqrt k := by
  refine Nat.eq_sqrt.2 (isqrtFrom_bounds k _ 0 (Nat.zero_le k) ?_)
  calc k < 2 ^ (k.log2 + 1) := Nat.lt_log2_self
    _ ≤ 2 ^ ((k.log2 / 2 + 1) + (k.log2 / 2 + 1)) := Nat.pow_le_pow_right two_pos (by omega)
    _ = (0 + 2 ^ (k.log2 / 2 + 1)) * (0 + 2 ^ (k.log2 / 2 + 1)) := by rw [pow_add, zero_add]

/-- From `2^53` grid units on, the midpoint of two neighbours is a whole number of units. -/
theorem even_magGrid_add_succ {lo : Nat} (h : 2 ^ 53 < F64.magGrid (lo + 1)) :
    2 ∣ F64.magGrid lo + F64.magGrid (lo + 1) := by
  have h53 : F64.magGrid (2 ^ 53) = 2 ^ 53 := F64.magGrid_shift (sh := 0) le_rfl (.inl rfl)
  rw [← h53, F64.magGrid_strictMono.lt_iff_lt] at h
  rw [F64.magGrid_succ, ← add_assoc, ← two_mul]
  exact dvd_add (dvd_mul_right 2 _) (dvd_pow_self 2 (by omega))

/-- Two reals strictly between the same whole numbers of grid units, far from the subnormals, are rounded alike. -/
theorem roundsBetween_congr {y z : ℝ} {lo n s : Nat} (h : F64.RoundsBetween y lo n) (hs : 2 ^ 53 ≤ s)
    (hsy : s < y) (hys : y < s + 1) (hsz : s < z) (hzs : z < s + 1) : F64.RoundsBetween z lo n := by
  have side : ∀ c : Nat, ((c : ℝ) < y ∧ (c : ℝ) < z) ∨ (y < c ∧ z < c) := by
    intro c
    obtain hc | hc := Nat.lt_or_ge s c
    · have : (s : ℝ) + 1 ≤ c := by exact_mod_cast hc
      exact .inr ⟨hys.trans_le this, hzs.trans_le this⟩
    · have : (c : ℝ) ≤ s := by exact_mod_cast hc
      exact .inl ⟨this.trans_lt hsy, this.trans_lt hsz⟩
  obtain ⟨hl, hu, hc⟩ := h
  have hbig : 2 ^ 53 < F64.magGrid (lo + 1) := hs.trans_lt (Nat.cast_lt.1 (hsy.trans hu))
  obtain ⟨c, hmid⟩ := even_magGrid_add_succ hbig
  have hmid' : (F64.magGrid lo : ℝ) + F64.magGrid (lo + 1) = 2 * c := by exact_mod_cast hmid
  rw [hmid'] at hc
  refine ⟨?_, ?_, ?_⟩
  · exact (side (F64.magGrid lo)).elim (fun h => h.2.le) fun h => absurd h.1 (not_lt.2 hl)
  · exact (side (F64.magGrid (lo + 1))).elim (fun h => absurd h.1 (not_lt.2 hu.le)) fun h => h.2
  · rw [hmid']
    obtain ⟨hcy, hcz⟩ | ⟨hcy, hcz⟩ := side c
    · obtain ⟨-, hlt | ⟨heq, -⟩⟩ | ⟨hn, -⟩ := hc
      · linarith
      · linarith
      · exact .inr ⟨hn, .inl (by linarith)⟩
    · obtain ⟨hn, -⟩ | ⟨-, hlt | ⟨heq, -⟩⟩ := hc
      · exact .inl ⟨hn, .inl (by linarith)⟩
      · linarith
      · linarith

/-- The root with its last bit, in half units, is rounded like the exact root. -/
theorem roundUnclamped_sqrt_nearestEven {k : Nat} (hk : 2 ^ 53 ≤ Nat.sqrt k) :
    F64.NearestEven (√k) (F64.roundUnclamped (2 * Nat.sqrt k + if Nat.sqrt k * Nat.sqrt k = k then 0 else 1) 2) := by
  obtain ⟨lo, h⟩ := F64.roundUnclamped_roundsBetween
    (2 * Nat.sqrt k + if Nat.sqrt k * Nat.sqrt k = k then 0 else 1) two_pos
  refine F64.RoundsBetween.nearestEven (lo := lo) ?_
  split at h
  case isTrue hsq =>
    rw [if_pos hsq]
    have hroot : √(k : ℝ) = (Nat.sqrt k : ℝ) := by
      rw [← Real.sqrt_mul_self (Nat.cast_nonneg (Nat.sqrt k)), ← Nat.cast_mul, hsq]
    simpa [hroot] using h
  case isFalse hsq =>
    rw [if_neg hsq]
    have hle := Real.nat_sqrt_le_real_sqrt (a := k)
    have hne : (Nat.sqrt k : ℝ) ≠ √k := fun he => hsq <| by
      have := Real.mul_self_sqrt (Nat.cast_nonneg (α := ℝ) k)
      rw [← he] at this
      exact_mod_cast this
    refine roundsBetween_congr h hk ?_ ?_ (lt_of_le_of_ne hle hne) Real.real_sqrt_lt_nat_sqrt_succ
    · push_cast; linarith
    · push_cast; linarith

theorem two_pow_le_sqrt_of_grid_pos {g : Nat} (hg : 0 < g) : 2 ^ 53 ≤ Nat.sqrt (g * F64.unit) :=
  Nat.le_sqrt.2 <| calc
    2 ^ 53 * 2 ^ 53 = 2 ^ 106 := (pow_add 2 53 53).symm
    _ ≤ F64.unit := by rw [F64.unit]; gcongr <;> decide
    _ ≤ g * F64.unit := Nat.le_mul_of_pos_left _ hg

theorem sqrt_realOf {a : Bits64} (hs : F64.neg a = false) :
    √(realOf a) = signed false (√(F64.grid a * F64.unit : ℕ)) / 2 ^ 1074 := by
  have hU : (0 : ℝ) < 2 ^ 1074 := by positivity
  rw [realOf_eq_signed_div, hs, Nat.cast_mul, cast_unit]
  generalize (2 ^ 1074 : ℝ) = u at hU ⊢
  rw [signed, signed, if_neg Bool.false_ne_true, if_neg Bool.false_ne_true, ← mul_div_mul_right _ _ hU.ne',
    Real.sqrt_div (by positivity), Real.sqrt_mul_self hU.le]

theorem roundsTo_sqrt {a : Bits64} (ha : F64.isFinite a = true) (hs : F64.neg a = false) :
    RoundsTo (√(realOf a)) (F64.sqrt a) := by
  cases hz : F64.isZero a with
  | true =>
    have h0 : realOf a = 0 := by
      rw [realOf_eq_signed_div, F64.grid_eq_magGrid, F64.isZero_iff.1 hz, hs]
      simp [signed]
    rw [F64.sqrt_of_isZero hz, h0, Real.sqrt_zero, ← F64.ofMag_neg_mag a, F64.isZero_iff.1 hz]
    exact roundsTo_zero _
  | false =>
    rw [F64.sqrt_of_isFinite ha hz hs, isqrt_eq_sqrt, sqrt_realOf hs]
    exact roundsTo_ofMag false (Real.sqrt_nonneg _)
      (roundUnclamped_sqrt_nearestEven (two_pow_le_sqrt_of_grid_pos (F64.grid_pos hz)))

/-- Settles O55: each operation is one rounding of a quotient of grid units, for the root of one that is rounded as the exact root is. -/
theorem arithmeticIsCorrectlyRounded : Obligations.ArithmeticIsCorrectlyRounded :=
  ⟨roundsTo_ofInt,
    fun _ _ ha hb => ⟨roundsTo_add ha hb, roundsTo_sub ha hb, roundsTo_mul ha hb, roundsTo_div ha hb,
      neg_add_of_sum_zero ha hb, neg_sub_of_difference_zero ha hb, neg_mul_of_isFinite ha hb, neg_div_of_isFinite ha hb⟩,
    fun _ ha hs => roundsTo_sqrt ha hs, fun _ => F64.sqrt_of_isZero⟩

end Sys2Proof.Machine
end

section
/-! ### Legal lengths are the powers of two up to 2048 (R141) -/
namespace Sys2Proof.Machine

theorem legalLen_iff_exists_pow {n : Nat} : legalLen n = true ↔ ∃ k, k ≤ 11 ∧ n = 2 ^ k := by
  have hmax : Config.nMax = 2 ^ 11 := rfl
  simp only [legalLen, hmax, Bool.and_eq_true, decide_eq_true_eq]
  constructor
  · rintro ⟨⟨h1, hle⟩, hand⟩
    obtain ⟨k, rfl⟩ := (Nat.and_sub_one_eq_zero_iff_isPowerOfTwo (by omega)).1 hand
    exact ⟨k, (Nat.pow_le_pow_iff_right Nat.one_lt_two).1 hle, rfl⟩
  · rintro ⟨k, hk, rfl⟩
    exact ⟨⟨Nat.one_le_two_pow, Nat.pow_le_pow_right Nat.two_pos hk⟩,
      (Nat.and_sub_one_eq_zero_iff_isPowerOfTwo (Nat.two_pow_pos k).ne').2 ⟨k, rfl⟩⟩

theorem legalLen_iff_mem {n : Nat} : legalLen n = true ↔ n ∈ legalLengths := by
  have hl : legalLengths = (List.range 12).map (2 ^ ·) := rfl
  simp only [legalLen_iff_exists_pow, hl, List.mem_map, List.mem_range, Nat.lt_succ_iff, eq_comm (a := n)]

theorem le_nMax_of_legalLen {n : Nat} (h : legalLen n = true) : n ≤ Config.nMax := by
  simp only [legalLen, Bool.and_eq_true, decide_eq_true_eq] at h
  exact h.1.2

theorem keyLegal_of_legalLen {n : Nat} (h : legalLen n = true) (h2 : 2 ≤ n) : KeyLegal n := by
  obtain ⟨k, hk, rfl⟩ := legalLen_iff_exists_pow.1 h
  exact .inr ⟨k, Nat.one_le_iff_ne_zero.2 (by rintro rfl; omega), hk, rfl⟩

theorem legalLen_nMax : legalLen Config.nMax = true := legalLen_iff_exists_pow.2 ⟨11, le_rfl, rfl⟩

end Sys2Proof.Machine
end

section
/-! ### Every command ends in a next state: one that keeps the record, or the fault entry for the command's own word (R271, R275) -/
namespace Sys2Proof.Machine

variable {s t : State}

theorem exec_total (i : Instr) (s : State) : ∃ t, exec i s = .next t := by
  cases i with
  | nop => exact ⟨_, rfl⟩
  | win len => simp only [exec, execWin, raiseFault_eq, ← apply_ite]; exact ⟨_, rfl⟩
  | fft nr ni => simp only [exec, execFft, raiseFault_eq, ← apply_ite]; exact ⟨_, rfl⟩
  | fftr n => simp only [exec, execFftr, raiseFault_eq, ← apply_ite]; exact ⟨_, rfl⟩
  | mag n => simp only [exec, execMag, raiseFault_eq, ← apply_ite]; exact ⟨_, rfl⟩
  | scale h => simp only [exec, execScale, raiseFault_eq, ← apply_ite]; exact ⟨_, rfl⟩
  | frame => exact ⟨_, rfl⟩

/-- What a command can do to the record. -/
theorem exec_record {i : Instr} (h : exec i s = .next t) : SameRecord s t ∨ ∃ c, t = s.latchFault c (cmdData i) := by
  cases i with
  | nop =>
    obtain rfl := execNop_next.1 h
    exact .inl ⟨rfl, rfl, rfl⟩
  | win len =>
    obtain ⟨-, rfl⟩ | ⟨-, rfl⟩ := execWin_next.1 h
    · exact .inl ⟨by simp, by simp, by simp⟩
    · exact .inr ⟨_, rfl⟩
  | fft nr ni =>
    obtain ⟨-, -, rfl⟩ | ⟨-, -, rfl⟩ | ⟨-, rfl⟩ := execFft_next.1 h
    · exact .inl ⟨by simp, by simp, by simp⟩
    · exact .inr ⟨_, rfl⟩
    · exact .inr ⟨_, rfl⟩
  | fftr n =>
    obtain ⟨-, rfl⟩ | ⟨-, rfl⟩ := execFftr_next.1 h
    · exact .inl ⟨by simp, by simp, by simp⟩
    · exact .inr ⟨_, rfl⟩
  | mag n =>
    obtain ⟨-, rfl⟩ | ⟨-, rfl⟩ := execMag_next.1 h
    · exact .inl ⟨by simp, by simp, by simp⟩
    · exact .inr ⟨_, rfl⟩
  | scale k =>
    obtain ⟨-, rfl⟩ | ⟨-, rfl⟩ := execScale_next.1 h
    · exact .inl ⟨by simp, by simp, by simp⟩
    · exact .inr ⟨_, rfl⟩
  | frame =>
    obtain rfl := execFrame_next.1 h
    exact .inl ⟨by simp, by simp, by simp⟩

end Sys2Proof.Machine
end

section
/-! ### What a write to a cell can do, and what a step can do -/
namespace Sys2Proof.Machine

variable {s t : State}

/-- What a write to the port other than a command or a soft reset keeps. -/
structure KeptByDataWrite (s t : State) : Prop where
  cache : SameCache s t
  record : SameRecord s t
  mlen : s.mlen ≤ Config.nMax → t.mlen ≤ Config.nMax
  memory : Memory.wf s → Memory.wf t

theorem KeptByDataWrite.refl (s : State) : KeptByDataWrite s s := ⟨⟨rfl, rfl, rfl⟩, ⟨rfl, rfl, rfl⟩, id, id⟩

/-- What a write can do: carry a command, reset, or neither. -/
theorem writeCell_next {c : PortCell} {d : Cell} {p : State × Resp} (hc : c.Inside) (h : writeCell d s c = .next p) :
    (c = .cmd ∧ cmdWrite d s = .next p) ∨ (c = .ctrl ∧ d.getLsbD 0 = true ∧ p = (s.softReset, .ok)) ∨
      KeptByDataWrite s p.1 := by
  cases c with
  | cmd => exact .inl ⟨rfl, h⟩
  | ctrl =>
    obtain rfl := Host.Outcome.next.inj h
    cases hd : d.getLsbD 0 with
    | true => exact .inr (.inl ⟨rfl, rfl, rfl⟩)
    | false => exact .inr (.inr (.refl s))
  | smp i =>
    obtain rfl := Host.Outcome.next.inj h
    exact .inr (.inr ⟨⟨rfl, rfl, rfl⟩, ⟨rfl, rfl, rfl⟩, id, fun hw => State.setSmp_wf hw (Cells.wf_put hw.1 hc _)⟩)
  | xr i =>
    obtain rfl := Host.Outcome.next.inj h
    exact .inr (.inr ⟨⟨rfl, rfl, rfl⟩, ⟨rfl, rfl, rfl⟩, id, fun hw => State.setXr_wf hw (Cells.wf_put hw.2.1 hc _)⟩)
  | xi i =>
    obtain rfl := Host.Outcome.next.inj h
    exact .inr (.inr ⟨⟨rfl, rfl, rfl⟩, ⟨rfl, rfl, rfl⟩, id, fun hw => State.setXi_wf hw (Cells.wf_put hw.2.2.1 hc _)⟩)
  | mag i =>
    obtain rfl := Host.Outcome.next.inj h
    exact .inr (.inr ⟨⟨rfl, rfl, rfl⟩, ⟨rfl, rfl, rfl⟩, id, fun hw => State.setMag_wf hw (Cells.wf_put hw.2.2.2.1 hc _)⟩)
  | pix y =>
    obtain rfl := Host.Outcome.next.inj h
    exact .inr (.inr ⟨⟨rfl, rfl, rfl⟩, ⟨rfl, rfl, rfl⟩, id, fun hw => State.setPix_wf hw (Cells.wf_put hw.2.2.2.2.1 hc _)⟩)
  | mlen =>
    rw [writeCell] at h
    split at h <;> obtain rfl := Host.Outcome.next.inj h
    case isTrue hd => exact .inr (.inr ⟨⟨rfl, rfl, rfl⟩, ⟨rfl, rfl, rfl⟩, fun _ => hd, id⟩)
    case isFalse => exact .inr (.inr (.refl s))
  | col _ | prom _ | wrom _ | status | twlen | id | errInfo | reserved =>
    obtain rfl := Host.Outcome.next.inj h
    exact .inr (.inr (.refl s))

/-- What a step can do: nothing with no transaction to come, otherwise the transaction at the head of the list. -/
theorem step_next : step s = .next t ↔
    (s.port = [] ∧ t = s) ∨ ∃ x rest, s.port = x :: rest ∧ runTxn x (s.setPort rest) = .next t := by
  cases hp : s.port with
  | nil => simp [step_of_port_nil hp, eq_comm]
  | cons x rest => simp [step_of_port_cons hp]

theorem runTxn_write_next {a : Addr} {d : Cell} :
    runTxn (.write a d) s = .next t ↔ ∃ p, hostWrite a d s = .next p ∧ t = p.1.complete (some p.2) := completeTxn_next

end Sys2Proof.Machine
end

section
/-! ### The invariant of R39 -/
namespace Sys2Proof.Machine

variable {s t : State}

theorem TablesMatch.of_sameCache (h : TablesMatch s) (hc : SameCache s t) : TablesMatch t := by
  unfold TablesMatch
  rw [hc.twlen, hc.twc, hc.tws]
  exact h

theorem RecordLegal.of_sameRecord (h : RecordLegal s) (hr : SameRecord s t) : RecordLegal t := by
  unfold RecordLegal
  rw [hr.err, hr.errCode, hr.errInfo]
  exact h

/-- With the cache and the record as they were, what is left is the length and the form of the arrays. -/
theorem State.Inv.of_same (h : s.Inv) (hc : SameCache s t) (hr : SameRecord s t) (hm : t.mlen ≤ Config.nMax)
    (hw : Memory.wf t) : t.Inv where
  key := hc.twlen ▸ h.key
  tables := h.tables.of_sameCache hc
  mlen := hm
  record := h.record.of_sameRecord hr
  memory := hw

/-- The registers at 0 meet the invariant, whatever the buffers hold. -/
theorem State.Inv.of_registers_zero (hk : s.twlen = 0) (hm : s.mlen = 0) (he : s.err = false) (hc : s.errCode = 0#4)
    (hi : s.errInfo = 0#64) (hw : Memory.wf s) : s.Inv where
  key := .inl hk
  tables := fun k hlt => by rw [hk] at hlt; omega
  mlen := hm ▸ Nat.zero_le _
  record := ⟨fun _ => ⟨hc, hi⟩, fun h => by simp [he] at h⟩
  memory := hw

theorem State.softReset_inv (h : s.Inv) : s.softReset.Inv :=
  .of_registers_zero rfl rfl rfl rfl rfl (State.softReset_wf h.memory)

theorem State.hardReset_inv (s : State) : s.hardReset.Inv := .of_registers_zero rfl rfl rfl rfl rfl State.hardReset_wf

theorem State.setPort_inv (h : s.Inv) (p : List Txn) : (s.setPort p).Inv := h.of_same ⟨rfl, rfl, rfl⟩ ⟨rfl, rfl, rfl⟩ h.mlen h.memory

theorem State.complete_inv (h : s.Inv) (r : Option Resp) : (s.complete r).Inv :=
  h.of_same ⟨rfl, rfl, rfl⟩ ⟨rfl, rfl, rfl⟩ h.mlen h.memory

theorem faultCode_bounds (c : FaultCode) : 1 ≤ (faultCode c).toNat ∧ (faultCode c).toNat ≤ 5 := by
  cases c <;> decide

theorem State.latchFault_inv (h : s.Inv) (c : FaultCode) (d : Cell) : (s.latchFault c d).Inv where
  key := h.key
  tables := h.tables
  mlen := h.mlen
  record := ⟨fun he => by simp at he, fun _ => faultCode_bounds c⟩
  memory := h.memory

/-- A rebuilt table is that of its key (R142, R143). -/
theorem State.setTables_tablesMatch (n : Nat) (c t : Cells Bits64) (s : State) :
    TablesMatch (s.setTables n (c.fill (n / 2) fun k => twCos Num.f64 k n) (t.fill (n / 2) fun k => twSin Num.f64 k n)) :=
  fun k hk => by
    rw [State.setTables_twlen] at hk
    simp [hk]

theorem State.cachePrepare_inv (h : s.Inv) {n : Nat} (hn : legalLen n = true) : (s.cachePrepare n).Inv := by
  have hw := State.cachePrepare_wf h.memory (le_nMax_of_legalLen hn)
  unfold State.cachePrepare at hw ⊢
  split
  case isTrue hc =>
    rw [if_pos hc] at hw
    exact ⟨keyLegal_of_legalLen hn hc.1, State.setTables_tablesMatch n _ _ s, h.mlen, h.record, hw⟩
  case isFalse => exact h

theorem State.winBody_inv (h : s.Inv) : s.winBody.Inv :=
  h.of_same ⟨by simp, by simp, by simp⟩ ⟨by simp, by simp, by simp⟩ (by simpa using h.mlen) (State.winBody_wf h.memory)

theorem State.fftBody_inv (h : s.Inv) {n : Nat} (hn : legalLen n = true) : (s.fftBody n).Inv :=
  (State.cachePrepare_inv h hn).of_same ⟨by simp, by simp, by simp⟩ ⟨by simp, by simp, by simp⟩ (by simpa using h.mlen)
    (State.fftBody_wf h.memory (le_nMax_of_legalLen hn))

theorem State.fftrBody_inv (h : s.Inv) {n : Nat} (hn : legalLen n = true) : (s.fftrBody n).Inv :=
  (State.cachePrepare_inv h hn).of_same ⟨by simp, by simp, by simp⟩ ⟨by simp, by simp, by simp⟩ (by simpa using h.mlen)
    (State.fftrBody_wf h.memory (le_nMax_of_legalLen hn))

theorem State.magBody_inv (h : s.Inv) {n : Nat} (hn : legalLen n = true) : (s.magBody n).Inv :=
  (State.cachePrepare_inv h hn).of_same ⟨by simp, by simp, by simp⟩ ⟨by simp, by simp, by simp⟩
    (by simpa using le_nMax_of_legalLen hn) (State.magBody_wf h.memory (le_nMax_of_legalLen hn))

theorem State.scaleBody_inv (h : s.Inv) {k : Nat} (hk : k ≤ Config.height) : (s.scaleBody k).Inv :=
  h.of_same ⟨by simp, by simp, by simp⟩ ⟨by simp, by simp, by simp⟩ (by simpa using h.mlen) (State.scaleBody_wf h.memory hk)

theorem State.frameBody_inv (h : s.Inv) : s.frameBody.Inv :=
  State.scaleBody_inv (State.magBody_inv (State.winBody_inv h) legalLen_nMax) le_rfl

theorem exec_inv {i : Instr} (h : s.Inv) (ht : exec i s = .next t) : t.Inv := by
  cases i with
  | nop =>
    obtain rfl := execNop_next.1 ht
    exact h
  | win len =>
    obtain ⟨-, rfl⟩ | ⟨-, rfl⟩ := execWin_next.1 ht
    · exact State.winBody_inv h
    · exact State.latchFault_inv h _ _
  | fft nr ni =>
    obtain ⟨hn, -, rfl⟩ | ⟨-, -, rfl⟩ | ⟨-, rfl⟩ := execFft_next.1 ht
    · exact State.fftBody_inv h hn
    · exact State.latchFault_inv h _ _
    · exact State.latchFault_inv h _ _
  | fftr n =>
    obtain ⟨hn, rfl⟩ | ⟨-, rfl⟩ := execFftr_next.1 ht
    · exact State.fftrBody_inv h hn
    · exact State.latchFault_inv h _ _
  | mag n =>
    obtain ⟨hn, rfl⟩ | ⟨-, rfl⟩ := execMag_next.1 ht
    · exact State.magBody_inv h hn
    · exact State.latchFault_inv h _ _
  | scale k =>
    obtain ⟨hk, rfl⟩ | ⟨-, rfl⟩ := execScale_next.1 ht
    · exact State.scaleBody_inv h ((legalHeight_iff k s.mlen).1 hk).2.1
    · exact State.latchFault_inv h _ _
  | frame =>
    obtain rfl := execFrame_next.1 ht
    exact State.frameBody_inv h

theorem cmdWrite_inv {d : Cell} {p : State × Resp} (h : s.Inv) (hp : cmdWrite d s = .next p) : p.1.Inv := by
  obtain ⟨-, rfl⟩ | ⟨-, -, rfl⟩ | ⟨-, i, u, -, hu, rfl⟩ := cmdWrite_next.1 hp
  · exact h
  · exact State.latchFault_inv h _ _
  · exact exec_inv h hu

theorem hostWrite_inv {a : Addr} {d : Cell} {p : State × Resp} (h : s.Inv) (hp : hostWrite a d s = .next p) : p.1.Inv := by
  obtain ⟨-, hcmd⟩ | ⟨-, -, rfl⟩ | hk := writeCell_next (cellOf_inside a) hp
  · exact cmdWrite_inv h hcmd
  · exact State.softReset_inv h
  · exact h.of_same hk.cache hk.record (hk.mlen h.mlen) (hk.memory h.memory)

theorem runTxn_inv {x : Txn} (h : s.Inv) (ht : runTxn x s = .next t) : t.Inv := by
  cases x with
  | read a =>
    obtain rfl := Host.Outcome.next.inj ht
    exact State.complete_inv h _
  | write a d =>
    obtain ⟨p, hp, rfl⟩ := runTxn_write_next.1 ht
    exact State.complete_inv (hostWrite_inv h hp) _
  | reset =>
    obtain rfl := Host.Outcome.next.inj ht
    exact State.complete_inv s.hardReset_inv _

/-- Settles O48: each transaction keeps the invariant, part by part; a rebuilt cache is the table of its new key. -/
theorem everyStepKeepsTheInvariant : Obligations.EveryStepKeepsTheInvariant := fun s t h ht => by
  obtain ⟨-, rfl⟩ | ⟨x, rest, -, hx⟩ := step_next.1 ht
  · exact h
  · exact runTxn_inv (State.setPort_inv h rest) hx

/-- Settles O49: reset leaves every register 0 and every array without a value. -/
theorem resetMeetsTheInvariant : Obligations.ResetMeetsTheInvariant :=
  .of_registers_zero rfl rfl rfl rfl rfl State.reset_wf

end Sys2Proof.Machine
end

section
/-! ### A word that decodes is the word of its command (R92, R93) -/
namespace Sys2Proof

theorem decodePlain_eq_ok {i j : Instr} {ia b a : Nat} :
    decodePlain i ia b a = .ok j ↔ ia = 0 ∧ b = 0 ∧ a = 0 ∧ i = j := by
  unfold decodePlain
  split_ifs <;> simp_all

theorem decodeOne_eq_ok {i : Nat → Instr} {j : Instr} {ia b a : Nat} :
    decodeOne i ia b a = .ok j ↔ ia = 0 ∧ b = 0 ∧ i a = j := by
  unfold decodeOne
  split_ifs <;> simp_all

theorem decodeTransform_eq_ok {j : Instr} {ia b a : Nat} :
    decodeTransform ia b a = .ok j ↔ (ia = 0 ∧ .fft a b = j) ∨ (ia ≠ 0 ∧ b = 0 ∧ .fftr a = j) := by
  unfold decodeTransform
  split_ifs <;> simp_all

theorem iaField_lt_two (w : CmdWord) : iaField w < 2 := Nat.mod_lt _ Nat.two_pos

/-- The fields of a word whose reserved field is 0 make up the word (R90). -/
theorem packWord_fields_eq {w : CmdWord} (h : rsvField w = 0) :
    packWord (opField w) (iaField w) (bField w) (aField w) = w := by
  have hw := w.isLt
  apply BitVec.eq_of_toNat_eq
  simp only [rsvField] at h
  simp only [packWord, opField, iaField, bField, aField, BitVec.toNat_ofNat]
  omega

theorem encode_of_decodeWord {w : CmdWord} {i : Instr} (h : decodeWord w = .ok i) : encode i = w := by
  rw [decodeWord] at h
  split at h
  case isTrue => simp at h
  case isFalse hr =>
    have hw := packWord_fields_eq (not_not.1 hr)
    have hia := iaField_lt_two w
    split at h
    next hop =>
      obtain ⟨h1, h2, h3, rfl⟩ := decodePlain_eq_ok.1 h
      rwa [hop, h1, h2, h3] at hw
    next hop =>
      obtain ⟨h1, h2, rfl⟩ := decodeOne_eq_ok.1 h
      rwa [hop, h1, h2] at hw
    next hop =>
      obtain ⟨h1, rfl⟩ | ⟨h1, h2, rfl⟩ := decodeTransform_eq_ok.1 h
      · rwa [hop, h1] at hw
      · rwa [hop, show iaField w = 1 by omega, h2] at hw
    next hop =>
      obtain ⟨h1, h2, rfl⟩ := decodeOne_eq_ok.1 h
      rwa [hop, h1, h2] at hw
    next hop =>
      obtain ⟨h1, h2, rfl⟩ := decodeOne_eq_ok.1 h
      rwa [hop, h1, h2] at hw
    next hop =>
      obtain ⟨h1, h2, h3, rfl⟩ := decodePlain_eq_ok.1 h
      rwa [hop, h1, h2, h3] at hw
    next => simp at h

theorem cmdData_of_decode {d : Cell} {i : Instr} (h : decode d = .ok i) : cmdData i = d := by
  rw [decode] at h
  split at h
  case isTrue => simp at h
  case isFalse hd =>
    rw [cmdData, encode_of_decodeWord h]
    apply BitVec.eq_of_toNat_eq
    simp only [BitVec.toNat_setWidth]
    omega

end Sys2Proof
end

section
/-! ### The flag: fault entry sets it, the resets clear it (R23) -/
namespace Sys2Proof.Machine

variable {s t : State}

@[simp] theorem cellOf_status : cellOf 0x3801#16 = .status := by decide +kernel
@[simp] theorem cellOf_mlen : cellOf 0x3802#16 = .mlen := by decide +kernel

theorem hostRead_status (s : State) : hostRead 0x3801#16 s = .data (statusWord s) := by rw [hostRead, cellOf_status, readCell]

/-- The fields of `STATUS` (R32). -/
theorem statusWord_fields (s : State) : (statusWord s).getLsbD 0 = s.err ∧ (statusWord s).extractLsb' 4 4 = s.errCode ∧
    (statusWord s).extractLsb' 1 3 = 0#3 ∧ (statusWord s).extractLsb' 8 56 = 0#56 := by
  rw [statusWord]
  generalize s.errCode = c
  generalize s.err = e
  decide +revert

theorem cmdWrite_of_err (h : s.err = true) (d : Cell) : cmdWrite d s = .next (s, .err) := if_pos h

theorem hostWrite_cmdAddr (d : Cell) (s : State) : hostWrite cmdAddr d s = cmdWrite d s := by
  rw [hostWrite, cellOf_cmdAddr, writeCell]

/-- A write to `CMD` that sets the flag is fault entry, and answers `ERR` (R275). -/
theorem cmdWrite_sets_err {d : Cell} {p : State × Resp} (hs : s.err = false) (h : cmdWrite d s = .next p)
    (hp : p.1.err = true) : ∃ c, p = (s.latchFault c d, .err) := by
  obtain ⟨he, -⟩ | ⟨-, -, rfl⟩ | ⟨-, i, u, hd, hu, rfl⟩ := cmdWrite_next.1 h
  · simp [he] at hs
  · exact ⟨_, rfl⟩
  · obtain hr | ⟨c, rfl⟩ := exec_record hu
    · rw [hr.err, hs] at hp
      exact absurd hp Bool.false_ne_true
    · exact ⟨c, by rw [cmdData_of_decode hd, cmdResp, if_pos (by simp)]⟩

theorem hostWrite_sets_err {a : Addr} {d : Cell} {p : State × Resp} (hs : s.err = false) (h : hostWrite a d s = .next p)
    (hp : p.1.err = true) : a = cmdAddr ∧ ∃ c, p = (s.latchFault c d, .err) := by
  obtain ⟨hc, hcmd⟩ | ⟨-, -, rfl⟩ | hk := writeCell_next (cellOf_inside a) h
  · exact ⟨eq_cmdAddr hc, cmdWrite_sets_err hs hcmd hp⟩
  · simp at hp
  · rw [hk.record.err, hs] at hp
    exact absurd hp Bool.false_ne_true

theorem hostWrite_clears_err {a : Addr} {d : Cell} {p : State × Resp} (hs : s.err = true) (h : hostWrite a d s = .next p)
    (hp : p.1.err = false) : a = ctrlAddr ∧ d.getLsbD 0 = true := by
  obtain ⟨-, hcmd⟩ | ⟨hc, hd, -⟩ | hk := writeCell_next (cellOf_inside a) h
  · rw [cmdWrite_of_err hs] at hcmd
    obtain rfl := Host.Outcome.next.inj hcmd
    simp [hs] at hp
  · exact ⟨eq_ctrlAddr hc, hd⟩
  · rw [hk.record.err, hs] at hp
    exact absurd hp Bool.false_ne_true.symm

theorem step_sets_err (h : step s = .next t) (hs : s.err = false) (ht : t.err = true) :
    ∃ d rest c, s.port = .write cmdAddr d :: rest ∧ t = ((s.setPort rest).latchFault c d).complete (some .err) := by
  obtain ⟨-, rfl⟩ | ⟨x, rest, hp, hx⟩ := step_next.1 h
  · simp [hs] at ht
  · cases x with
    | read a =>
      obtain rfl := Host.Outcome.next.inj hx
      simp [hs] at ht
    | write a d =>
      obtain ⟨p, hw, rfl⟩ := runTxn_write_next.1 hx
      obtain ⟨rfl, c, rfl⟩ := hostWrite_sets_err (s := s.setPort rest) hs hw ht
      exact ⟨d, rest, c, hp, rfl⟩
    | reset =>
      obtain rfl := Host.Outcome.next.inj hx
      simp at ht

theorem step_clears_err (h : step s = .next t) (hs : s.err = true) (ht : t.err = false) :
    ∃ rest, s.port = .reset :: rest ∨ ∃ d, d.getLsbD 0 = true ∧ s.port = .write ctrlAddr d :: rest := by
  obtain ⟨-, rfl⟩ | ⟨x, rest, hp, hx⟩ := step_next.1 h
  · simp [hs] at ht
  · cases x with
    | read a =>
      obtain rfl := Host.Outcome.next.inj hx
      simp [hs] at ht
    | write a d =>
      obtain ⟨p, hw, rfl⟩ := runTxn_write_next.1 hx
      obtain ⟨rfl, hd⟩ := hostWrite_clears_err (s := s.setPort rest) hs hw ht
      exact ⟨rest, .inr ⟨d, hd, hp⟩⟩
    | reset => exact ⟨rest, .inl hp⟩

theorem step_of_reset {rest : List Txn} (h : s.port = .reset :: rest) :
    step s = .next ((s.setPort rest).hardReset.complete none) := by
  rw [step_of_port_cons h, runTxn_reset]

theorem step_of_softReset {d : Cell} {rest : List Txn} (hd : d.getLsbD 0 = true) (h : s.port = .write ctrlAddr d :: rest) :
    step s = .next ((s.setPort rest).softReset.complete (some .ok)) := by
  rw [step_of_port_cons h, runTxn_write, cellOf_ctrlAddr, writeCell, if_pos hd, completeTxn]

/-- A command that does not set the flag keeps the record. -/
theorem exec_sameRecord {i : Instr} (h : exec i s = .next t) (ht : t.err = false) : SameRecord s t := by
  obtain hr | ⟨c, rfl⟩ := exec_record h
  · exact hr
  · simp at ht

/-- Settles O12: only fault entry sets the flag and only a reset clears it, transaction by transaction. -/
theorem errorFlagIsTheOnlyFlag : Obligations.ErrorFlagIsTheOnlyFlag := by
  refine ⟨fun s t h hs ht => ?_, fun s t => step_clears_err, fun s rest => ⟨fun hp => ⟨_, step_of_reset hp, rfl⟩,
    fun d hd hp => ⟨_, step_of_softReset hd hp, rfl⟩⟩, fun s d hs => ?_, fun s => ⟨_, hostRead_status s, (statusWord_fields s).1⟩,
    fun i s t _ => exec_sameRecord, rfl⟩
  · obtain ⟨d, rest, c, hp, rfl⟩ := step_sets_err h hs ht
    exact ⟨d, rest, faultCode c, hp, rfl⟩
  · rw [hostWrite_cmdAddr, cmdWrite_of_err hs]

end Sys2Proof.Machine
end

section
/-! ### The registers `STATUS` and `MLEN` (R32, R34) -/
namespace Sys2Proof.Machine

variable {s t : State}

theorem hostRead_status_of_inv (h : s.Inv) (he : s.err = false) : hostRead 0x3801#16 s = .data 0#64 := by
  rw [hostRead_status, statusWord, (h.record.1 he).1, he]
  rfl

/-- Settles O43: the fields are those of the status word, and no write reaches it. -/
theorem statusRegisterFields : Obligations.StatusRegisterFields := by
  refine ⟨fun s => ⟨_, hostRead_status s, statusWord_fields s⟩, fun s => hostRead_status_of_inv, fun s d => ?_,
    hostRead_status_of_inv resetMeetsTheInvariant rfl⟩
  rw [hostWrite, cellOf_status, writeCell]

theorem hostRead_mlen (s : State) : hostRead 0x3802#16 s = .data (BitVec.ofNat 64 s.mlen) := by
  rw [hostRead, cellOf_mlen, readCell]

theorem hostWrite_mlen (d : Cell) (s : State) :
    hostWrite 0x3802#16 d s = if d.toNat ≤ 2048 then .next (s.setMlen d.toNat, .ok) else .next (s, .err) := by
  rw [hostWrite, cellOf_mlen, writeCell]
  rfl

@[simp] theorem State.frameBody_mlen (s : State) : s.frameBody.mlen = 2048 := by
  simp [State.frameBody, Config.nMax]

/-- Settles O44: of the commands only `MAG` and `FRAME` store magnitudes, and with them their number. -/
theorem lengthRegisterWrites : Obligations.LengthRegisterWrites := by
  refine ⟨fun s d => ⟨fun hd => ?_, fun hd => ?_, hostRead_mlen s⟩, fun i s => ?_, fun h s h1 hh hm => ?_, rfl⟩
  · rw [hostWrite_mlen, if_pos hd]
    rfl
  · rw [hostWrite_mlen, if_neg (by omega)]
  · obtain ⟨t, ht⟩ := exec_total i s
    refine ⟨t, ht, ?_⟩
    cases i with
    | nop =>
      obtain rfl := execNop_next.1 ht
      rfl
    | win len => obtain ⟨-, rfl⟩ | ⟨-, rfl⟩ := execWin_next.1 ht <;> simp
    | fft nr ni => obtain ⟨-, -, rfl⟩ | ⟨-, -, rfl⟩ | ⟨-, rfl⟩ := execFft_next.1 ht <;> simp
    | fftr n => obtain ⟨-, rfl⟩ | ⟨-, rfl⟩ := execFftr_next.1 ht <;> simp
    | mag n => obtain ⟨hn, rfl⟩ | ⟨hn, rfl⟩ := execMag_next.1 ht <;> simp [← legalLen_iff_mem, hn]
    | scale h => obtain ⟨-, rfl⟩ | ⟨-, rfl⟩ := execScale_next.1 ht <;> simp
    | frame =>
      obtain rfl := execFrame_next.1 ht
      simp
  · have ht : exec (.scale h) s = .next (s.scaleBody h) :=
      execScale_next.2 (.inl ⟨(legalHeight_iff h s.mlen).2 ⟨h1, hh, hm⟩, rfl⟩)
    exact ⟨_, ht, by simp, by simp, by simp⟩

end Sys2Proof.Machine
end

section
/-! ### The buffers on the address map (R61) -/
namespace Sys2Proof.Machine

theorem cellOf_smp {a : Addr} (h : a.toNat < 0x0800) : cellOf a = .smp a.toNat := if_pos h

theorem cellOf_xr {a : Addr} (h : 0x0800 ≤ a.toNat) (h' : a.toNat < 0x1000) : cellOf a = .xr (a.toNat - 0x0800) := by
  rw [cellOf, if_neg (by omega), if_pos h']

theorem cellOf_xi {a : Addr} (h : 0x1000 ≤ a.toNat) (h' : a.toNat < 0x1800) : cellOf a = .xi (a.toNat - 0x1000) := by
  rw [cellOf, if_neg (by omega), if_neg (by omega), if_pos h']

theorem cellOf_mag {a : Addr} (h : 0x1800 ≤ a.toNat) (h' : a.toNat < 0x2000) : cellOf a = .mag (a.toNat - 0x1800) := by
  rw [cellOf, if_neg (by omega), if_neg (by omega), if_neg (by omega), if_pos h']

theorem cellOf_pix {a : Addr} (h : 0x2000 ≤ a.toNat) (h' : a.toNat < 0x2400) : cellOf a = .pix (a.toNat - 0x2000) := by
  rw [cellOf, if_neg (by omega), if_neg (by omega), if_neg (by omega), if_neg (by omega), if_pos h']

theorem cellOf_col {a : Addr} (h : 0x2400 ≤ a.toNat) (h' : a.toNat < 0x2800) : cellOf a = .col (a.toNat - 0x2400) := by
  rw [cellOf, if_neg (by omega), if_neg (by omega), if_neg (by omega), if_neg (by omega), if_neg (by omega), if_pos h']

/-- The address of a cell of a buffer or of `COL`, `none` for what stands above them (R61). -/
def PortCell.lowAddr : PortCell → Option Nat
  | .smp i => some i
  | .xr i => some (0x0800 + i)
  | .xi i => some (0x1000 + i)
  | .mag i => some (0x1800 + i)
  | .pix y => some (0x2000 + y)
  | .col y => some (0x2400 + y)
  | _ => none

theorem lowAddr_registerOf (k : Nat) : (registerOf k).lowAddr = none := by
  unfold registerOf
  split <;> rfl

theorem lowAddr_cellOf {a : Addr} (h : a.toNat < 0x2800) : (cellOf a).lowAddr = some a.toNat := by
  obtain h1 | ⟨h1, h2⟩ | ⟨h1, h2⟩ | ⟨h1, h2⟩ | ⟨h1, h2⟩ | ⟨h1, h2⟩ : a.toNat < 0x0800 ∨ (0x0800 ≤ a.toNat ∧ a.toNat < 0x1000) ∨
      (0x1000 ≤ a.toNat ∧ a.toNat < 0x1800) ∨ (0x1800 ≤ a.toNat ∧ a.toNat < 0x2000) ∨
      (0x2000 ≤ a.toNat ∧ a.toNat < 0x2400) ∨ (0x2400 ≤ a.toNat ∧ a.toNat < 0x2800) := by omega
  · rw [cellOf_smp h1, PortCell.lowAddr]
  · rw [cellOf_xr h1 h2, PortCell.lowAddr, Nat.add_sub_cancel' h1]
  · rw [cellOf_xi h1 h2, PortCell.lowAddr, Nat.add_sub_cancel' h1]
  · rw [cellOf_mag h1 h2, PortCell.lowAddr, Nat.add_sub_cancel' h1]
  · rw [cellOf_pix h1 h2, PortCell.lowAddr, Nat.add_sub_cancel' h1]
  · rw [cellOf_col h1 h2, PortCell.lowAddr, Nat.add_sub_cancel' h1]

theorem lowAddr_cellOf_of_le {a : Addr} (h : 0x2800 ≤ a.toNat) : (cellOf a).lowAddr = none := by
  have hr := lowAddr_registerOf (a.toNat - 0x3800)
  rw [cellOf, if_neg (by omega), if_neg (by omega), if_neg (by omega), if_neg (by omega), if_neg (by omega), if_neg (by omega)]
  split_ifs
  · rfl
  · rfl
  · rfl
  · exact hr

/-- A cell of a buffer or of `COL` has one address. -/
theorem eq_of_cellOf_eq {a b : Addr} (h : a.toNat < 0x2800) (hc : cellOf b = cellOf a) : b = a := by
  have ha := lowAddr_cellOf h
  rw [← hc] at ha
  by_cases hb : b.toNat < 0x2800
  · rw [lowAddr_cellOf hb] at ha
    exact BitVec.eq_of_toNat_eq (Option.some.inj ha)
  · rw [lowAddr_cellOf_of_le (Nat.le_of_not_lt hb)] at ha
    cases ha

/-- `COL[y]` is seen 0x0400 above `PIX[y]`. -/
theorem cellOf_add_colOffset {a : Addr} (h : 0x2000 ≤ a.toNat) (h' : a.toNat < 0x2400) :
    cellOf (a + 0x0400#16) = .col (a.toNat - 0x2000) := by
  have ha : (a + 0x0400#16).toNat = a.toNat + 0x0400 := by
    rw [BitVec.toNat_add, BitVec.toNat_ofNat]
    omega
  rw [cellOf_col (by omega) (by omega), show (a + 0x0400#16).toNat - 0x2400 = a.toNat - 0x2000 by omega]

end Sys2Proof.Machine
end

section
/-! ### A read after a write of one cell (R27 to R30, R38) -/
namespace Sys2Proof.Machine

/-- Dropping the bits from `k` on is masking them. -/
theorem setWidth_setWidth_eq_and (d : Cell) {k : Nat} (hk : k ≤ 64) :
    (d.setWidth k).setWidth 64 = d &&& BitVec.ofNat 64 (2 ^ k - 1) := by
  have hpow : 2 ^ k ≤ 2 ^ 64 := Nat.pow_le_pow_right Nat.two_pos hk
  have hpos := Nat.two_pow_pos k
  apply BitVec.eq_of_toNat_eq
  rw [BitVec.toNat_setWidth, BitVec.toNat_setWidth, BitVec.toNat_and, BitVec.toNat_ofNat,
    Nat.mod_eq_of_lt ((Nat.mod_lt _ hpos).trans_le hpow), Nat.mod_eq_of_lt (show 2 ^ k - 1 < 2 ^ 64 by omega),
    Nat.and_two_pow_sub_one_eq_mod]

theorem cellOfSample_sampleOfCell (d : Cell) : cellOfSample (sampleOfCell d) = d &&& 0x00000001FFFFFFFF#64 := by
  have hcons : BitVec.ofBool (d.getLsbD 32) ++ d.setWidth 32 = d.setWidth 33 := (BitVec.setWidth_succ d).symm
  rw [cellOfSample, sampleOfCell, hcons]
  exact setWidth_setWidth_eq_and d (by decide)

theorem cellOfIntensity_intensityOfCell (d : Cell) : cellOfIntensity (intensityOfCell d) = d &&& 0x00000000000000FF#64 :=
  setWidth_setWidth_eq_and d (by decide)

/-- What a write of `d` to the buffer cell `c` that leaves the image `w` there does: reads see `w` in the cell, the color of an intensity in
`COL` and everything else as it was, and `MLEN`, the cache and the record are kept. -/
structure BufferWrite (c : PortCell) (d w : Cell) (s t : State) : Prop where
  here : readCell t c = .data w
  color : ∀ y, c = .pix y → readCell t (.col y) = .data (cellOfColor (prom (intensityOfCell d)))
  elsewhere : ∀ c', c' ≠ c → (∀ y, c = .pix y → c' ≠ .col y) → readCell t c' = readCell s c'
  kept : t.mlen = s.mlen ∧ SameCache s t ∧ SameRecord s t

theorem setSmp_bufferWrite (i : Nat) (d : Cell) (s : State) :
    BufferWrite (.smp i) d (d &&& 0x00000001FFFFFFFF#64) s (s.setSmp (s.smp.put i (sampleOfCell d))) where
  here := by simp [readCell, State.rdSmp, cellOfSample_sampleOfCell]
  color := nofun
  elsewhere c' hne _ := by
    cases c' with
    | smp j =>
      have hj : j ≠ i := fun h => hne (congrArg _ h)
      simp [readCell, State.rdSmp, hj]
    | _ => rfl
  kept := ⟨rfl, ⟨rfl, rfl, rfl⟩, ⟨rfl, rfl, rfl⟩⟩

theorem setXr_bufferWrite (i : Nat) (d : Cell) (s : State) :
    BufferWrite (.xr i) d d s (s.setXr (s.xr.put i (F64.dec d))) where
  here := by simp [readCell, State.rdXr, F64.enc, F64.dec]
  color := nofun
  elsewhere c' hne _ := by
    cases c' with
    | xr j =>
      have hj : j ≠ i := fun h => hne (congrArg _ h)
      simp [readCell, State.rdXr, hj]
    | _ => rfl
  kept := ⟨rfl, ⟨rfl, rfl, rfl⟩, ⟨rfl, rfl, rfl⟩⟩

theorem setXi_bufferWrite (i : Nat) (d : Cell) (s : State) :
    BufferWrite (.xi i) d d s (s.setXi (s.xi.put i (F64.dec d))) where
  here := by simp [readCell, State.rdXi, F64.enc, F64.dec]
  color := nofun
  elsewhere c' hne _ := by
    cases c' with
    | xi j =>
      have hj : j ≠ i := fun h => hne (congrArg _ h)
      simp [readCell, State.rdXi, hj]
    | _ => rfl
  kept := ⟨rfl, ⟨rfl, rfl, rfl⟩, ⟨rfl, rfl, rfl⟩⟩

theorem setMag_bufferWrite (i : Nat) (d : Cell) (s : State) :
    BufferWrite (.mag i) d d s (s.setMag (s.mag.put i (F64.dec d))) where
  here := by simp [readCell, State.rdMag, F64.enc, F64.dec]
  color := nofun
  elsewhere c' hne _ := by
    cases c' with
    | mag j =>
      have hj : j ≠ i := fun h => hne (congrArg _ h)
      simp [readCell, State.rdMag, hj]
    | _ => rfl
  kept := ⟨rfl, ⟨rfl, rfl, rfl⟩, ⟨rfl, rfl, rfl⟩⟩

theorem setPix_bufferWrite (y : Nat) (d : Cell) (s : State) :
    BufferWrite (.pix y) d (d &&& 0x00000000000000FF#64) s (s.setPix (s.pix.put y (intensityOfCell d))) where
  here := by simp [readCell, State.rdPix, cellOfIntensity_intensityOfCell]
  color z hz := by
    obtain rfl := PortCell.pix.inj hz
    simp [readCell, State.rdPix]
  elsewhere c' hne hcol := by
    cases c' with
    | pix j =>
      have hj : j ≠ y := fun h => hne (congrArg _ h)
      simp [readCell, State.rdPix, hj]
    | col j =>
      have hj : j ≠ y := fun h => hcol y rfl (congrArg _ h)
      simp [readCell, State.rdPix, hj]
    | _ => rfl
  kept := ⟨rfl, ⟨rfl, rfl, rfl⟩, ⟨rfl, rfl, rfl⟩⟩

/-- From cells to addresses: every cell of a buffer has one address, and `COL` is seen 0x0400 above `PIX`. -/
theorem BufferWrite.at_addr {a : Addr} {d w : Cell} {s t : State} (ha : a.toNat < 0x2400) (h : BufferWrite (cellOf a) d w s t) :
    hostRead a t = .data w ∧
      (0x2000 ≤ a.toNat → hostRead (a + 0x0400#16) t = .data ((prom (d.extractLsb' 0 8)).setWidth 64)) ∧
      (∀ b, b ≠ a → ¬(0x2000 ≤ a.toNat ∧ b = a + 0x0400#16) → hostRead b t = hostRead b s) ∧
      t.mlen = s.mlen ∧ SameCache s t ∧ SameRecord s t := by
  refine ⟨h.here, fun hp => ?_, fun b hb hcol => h.elsewhere _ (fun hc => hb (eq_of_cellOf_eq (by omega) hc)) fun y hy hc => hcol ?_,
    h.kept⟩
  · rw [hostRead, cellOf_add_colOffset hp ha, h.color _ (cellOf_pix hp ha)]
    rfl
  · have hya := lowAddr_cellOf (show a.toNat < 0x2800 by omega)
    rw [hy] at hya
    have hp : 0x2000 ≤ a.toNat := Option.some.inj hya ▸ Nat.le_add_right _ _
    have hay := hy.symm.trans (cellOf_pix hp ha)
    refine ⟨hp, eq_of_cellOf_eq ?_ ?_⟩
    · rw [BitVec.toNat_add, BitVec.toNat_ofNat]
      omega
    · rw [hc, cellOf_add_colOffset hp ha, PortCell.pix.inj hay]

/-- Settles O42: a write to a buffer puts one cell, and the address map is injective on the buffers. -/
theorem writeThenReadBack : Obligations.WriteThenReadBack := by
  intro s a d ha
  obtain h1 | ⟨h1, h2⟩ | ⟨h1, h2⟩ | ⟨h1, h2⟩ | h1 : a.toNat < 0x0800 ∨ (0x0800 ≤ a.toNat ∧ a.toNat < 0x1000) ∨
      (0x1000 ≤ a.toNat ∧ a.toNat < 0x1800) ∨ (0x1800 ≤ a.toNat ∧ a.toNat < 0x2000) ∨ 0x2000 ≤ a.toNat := by omega
  · refine ⟨_, congrArg (writeCell d s) (cellOf_smp h1), ?_⟩
    rw [if_pos h1]
    exact BufferWrite.at_addr ha (cellOf_smp h1 ▸ setSmp_bufferWrite _ d s)
  · refine ⟨_, congrArg (writeCell d s) (cellOf_xr h1 h2), ?_⟩
    rw [if_neg (by omega), if_pos (by omega)]
    exact BufferWrite.at_addr ha (cellOf_xr h1 h2 ▸ setXr_bufferWrite _ d s)
  · refine ⟨_, congrArg (writeCell d s) (cellOf_xi h1 h2), ?_⟩
    rw [if_neg (by omega), if_pos (by omega)]
    exact BufferWrite.at_addr ha (cellOf_xi h1 h2 ▸ setXi_bufferWrite _ d s)
  · refine ⟨_, congrArg (writeCell d s) (cellOf_mag h1 h2), ?_⟩
    rw [if_neg (by omega), if_pos (by omega)]
    exact BufferWrite.at_addr ha (cellOf_mag h1 h2 ▸ setMag_bufferWrite _ d s)
  · refine ⟨_, congrArg (writeCell d s) (cellOf_pix h1 ha), ?_⟩
    rw [if_neg (by omega), if_neg (by omega)]
    exact BufferWrite.at_addr ha (cellOf_pix h1 ha ▸ setPix_bufferWrite _ d s)

end Sys2Proof.Machine
end

section
/-! ### Bounds that rounding keeps (R8) -/
namespace Sys2Proof.Machine

variable {r : ℝ} {v w : Bits64}

/-- What is far below the overflow threshold. -/
theorem lt_overflow_of_le {x : ℝ} (h : x ≤ 2 ^ 64) : x < (2 ^ 54 - 1) * 2 ^ 970 := by
  calc x ≤ 2 ^ 64 := h
    _ < 2 ^ 970 := pow_lt_pow_right₀ one_lt_two (by norm_num)
    _ ≤ (2 ^ 54 - 1) * 2 ^ 970 := le_mul_of_one_le_left (by positivity) (by norm_num)

/-- A number below the real result is below its rounding. -/
theorem RoundsTo.le_realOf (h : RoundsTo r v) (hr : |r| < (2 ^ 54 - 1) * 2 ^ 970) (hw : F64.isFinite w = true)
    (hle : realOf w ≤ r) : realOf w ≤ realOf v := by
  have hn := ((h.nearest hr).2 w hw).1
  rw [abs_of_nonpos (sub_nonpos.2 hle)] at hn
  linarith [(abs_le.1 hn).1]

/-- A number above the real result is above its rounding. -/
theorem RoundsTo.realOf_le (h : RoundsTo r v) (hr : |r| < (2 ^ 54 - 1) * 2 ^ 970) (hw : F64.isFinite w = true)
    (hle : r ≤ realOf w) : realOf v ≤ realOf w := by
  have hn := ((h.nearest hr).2 w hw).1
  rw [abs_of_nonneg (sub_nonneg.2 hle)] at hn
  linarith [(abs_le.1 hn).2]

theorem realOf_of_isZero (h : F64.isZero v = true) : realOf v = 0 := by
  rw [realOf_eq_signed, F64.isZero_iff.1 h, F64.magGrid_zero]
  cases F64.neg v <;> simp [signed]

/-- A rounding is finite and at most twice the real result, since 0 is a number. -/
theorem RoundsTo.abs_realOf_le (h : RoundsTo r v) (hr : |r| ≤ 2 ^ 64) : F64.isFinite v = true ∧ |realOf v| ≤ 2 * |r| := by
  obtain ⟨hfin, hn⟩ := h.nearest (lt_overflow_of_le hr)
  have hz : F64.isZero F64.zero = true := by decide
  have h0 := (hn F64.zero (F64.isFinite_of_isZero hz)).1
  rw [realOf_of_isZero hz, zero_sub, abs_neg] at h0
  have htri := abs_sub_abs_le_abs_sub (realOf v) r
  exact ⟨hfin, by linarith⟩

theorem realOf_of_gridInt {k : Int} (h : F64.gridInt v = k * F64.unit) : realOf v = k := by
  rw [realOf, h, Int.cast_mul, Int.cast_natCast, cast_unit, mul_div_cancel_right₀ _ (by positivity)]

theorem realOf_ofInt_zero : realOf (F64.ofInt 0) = 0 := realOf_of_isZero (by decide +kernel)

theorem realOf_ofInt_one : realOf (F64.ofInt 1) = 1 := by
  simpa using realOf_of_gridInt (v := F64.ofInt 1) (k := 1) (by decide +kernel)

theorem realOf_ofInt_two : realOf (F64.ofInt 2) = 2 := by
  simpa using realOf_of_gridInt (v := F64.ofInt 2) (k := 2) (by decide +kernel)

theorem ofInt_one : F64.ofInt 1 = F64.one := by decide +kernel

theorem abs_realOf (v : Bits64) : |realOf v| = (F64.magGrid (F64.mag v) : ℝ) / 2 ^ 1074 := by
  rw [realOf_eq_signed, abs_div, abs_signed, Nat.abs_cast, abs_of_pos (by positivity)]

/-- Magnitude patterns order the absolute values. -/
theorem abs_realOf_le_abs_realOf_iff : |realOf v| ≤ |realOf w| ↔ F64.mag v ≤ F64.mag w := by
  rw [abs_realOf, abs_realOf, div_le_div_iff_of_pos_right (by positivity), Nat.cast_le, F64.magGrid_strictMono.le_iff_le]

end Sys2Proof.Machine
end

section
/-! ### The window's coefficients (R24, R121, R122) -/
namespace Sys2Proof.Machine

/-- The operand of the cosine in `WROM[i]`, in the order R121 fixes. -/
def winAngle (i : Nat) : Bits64 :=
  F64.div (F64.mul (F64.mul (F64.ofInt 2) F64.pi) (F64.ofInt i)) (F64.ofInt 2048)

theorem wrom_eq (i : Nat) : wrom i = F64.sub (F64.ofInt 1) (Config.math.fcos (winAngle i)) := by
  have hn : ((Config.nMax : Nat) : Int) = 2048 := rfl
  simp only [wrom, winCoef, Num.f64, winAngle, hn]

theorem isZero_winAngle_zero : F64.isZero (winAngle 0) = true := by decide +kernel

theorem wrom_zero : wrom 0 = F64.zero := by
  rw [wrom_eq, Config.math.cos0 _ isZero_winAngle_zero]
  decide +kernel

/-- The angle of every coefficient is a finite number: no rounding on the way comes near the overflow. -/
theorem isFinite_winAngle {i : Nat} (hi : i < 2048) : F64.isFinite (winAngle i) = true := by
  have hi' : |((i : Int) : ℝ)| ≤ 2048 := by
    rw [Int.cast_natCast, Nat.abs_cast]
    exact_mod_cast hi.le
  have hτ : F64.isFinite (F64.mul (F64.ofInt 2) F64.pi) = true := by decide +kernel
  have hτ7 : |realOf (F64.mul (F64.ofInt 2) F64.pi)| ≤ |realOf (F64.ofInt 7)| :=
    abs_realOf_le_abs_realOf_iff.2 (by decide +kernel)
  obtain ⟨-, h7⟩ := (roundsTo_ofInt 7).abs_realOf_le (by norm_num)
  obtain ⟨hif, hib⟩ := (roundsTo_ofInt i).abs_realOf_le (by linarith)
  have hprod : |realOf (F64.mul (F64.ofInt 2) F64.pi) * realOf (F64.ofInt i)| ≤ 14 * 4096 := by
    rw [abs_mul]
    exact mul_le_mul (hτ7.trans (h7.trans (by norm_num))) (by linarith) (abs_nonneg _) (by norm_num)
  obtain ⟨hpf, hpb⟩ := (roundsTo_mul hτ hif).abs_realOf_le (by linarith)
  have hd : F64.isFinite (F64.ofInt 2048) = true ∧ F64.isZero (F64.ofInt 2048) = false := by decide +kernel
  have hd1 : 1 ≤ |realOf (F64.ofInt 2048)| := by
    rw [← abs_one (α := ℝ), ← realOf_ofInt_one]
    exact abs_realOf_le_abs_realOf_iff.2 (by decide +kernel)
  refine ((roundsTo_div hpf hd.1 hd.2).abs_realOf_le ?_).1
  rw [abs_div]
  exact (div_le_self (abs_nonneg _) hd1).trans (by linarith)

theorem abs_realOf_fcos_le {x : Bits64} (hx : F64.isFinite x = true) : |realOf (Config.math.fcos x)| ≤ 1 := by
  have h1 : |realOf F64.one| = 1 := by rw [← ofInt_one, realOf_ofInt_one, abs_one]
  exact h1 ▸ abs_realOf_le_abs_realOf_iff.2 (Config.math.cosFin x hx).2

theorem ge_of_realOf_le {a b : Bits64} (ha : F64.isFinite a = true) (hb : F64.isFinite b = true) (h : realOf b ≤ realOf a) :
    F64.ge a b = true :=
  (F64.ge_iff_key_le (F64.isNaN_of_isFinite ha) (F64.isNaN_of_isFinite hb)).2 ((realOf_le_realOf_iff b a).1 h)

/-- Rounding `1 − c` for `c` in [-1, 1] stays between the numbers 0 and 2 (R122). -/
theorem wrom_range {i : Nat} (hi : i < 2048) :
    F64.isFinite (wrom i) = true ∧ F64.ge (wrom i) (F64.ofInt 0) = true ∧ F64.ge (F64.ofInt 2) (wrom i) = true := by
  have hθ := isFinite_winAngle hi
  have hc := abs_le.1 (abs_realOf_fcos_le hθ)
  have hfin : F64.isFinite (F64.ofInt 0) = true ∧ F64.isFinite (F64.ofInt 1) = true ∧ F64.isFinite (F64.ofInt 2) = true := by
    decide +kernel
  obtain ⟨h0, h1, h2⟩ := hfin
  have hround := roundsTo_sub h1 (Config.math.cosFin _ hθ).1
  rw [← wrom_eq, realOf_ofInt_one] at hround
  have hr : |1 - realOf (Config.math.fcos (winAngle i))| ≤ 2 := abs_le.2 ⟨by linarith, by linarith⟩
  have hlt := lt_overflow_of_le (hr.trans (by norm_num))
  have hv := (hround.nearest hlt).1
  refine ⟨hv, ge_of_realOf_le hv h0 (hround.le_realOf hlt h0 ?_), ge_of_realOf_le h2 hv (hround.realOf_le hlt h2 ?_)⟩
  · rw [realOf_ofInt_zero]
    linarith
  · rw [realOf_ofInt_two]
    linarith

/-- Settles O15: the cosine lies in [-1, 1] at a finite angle, and rounding keeps the bounds 0 and 2. -/
theorem windowRomIsInRange : Obligations.WindowRomIsInRange := ⟨wrom_zero, wrom_eq, fun _ => wrom_range⟩

end Sys2Proof.Machine
end

section
/-! ### Addresses by array index, and the addresses above the buffers (R61) -/
namespace Sys2Proof.Machine

theorem cellOf_smp_index {i : Nat} (h : i < 2048) : cellOf (BitVec.ofNat 16 i) = .smp i := by
  have ha : (BitVec.ofNat 16 i).toNat = i := Nat.mod_eq_of_lt (by omega)
  rw [cellOf_smp (by omega), ha]

theorem cellOf_xr_index {i : Nat} (h : i < 2048) : cellOf (BitVec.ofNat 16 (0x0800 + i)) = .xr i := by
  have ha : (BitVec.ofNat 16 (0x0800 + i)).toNat = 0x0800 + i := Nat.mod_eq_of_lt (by omega)
  rw [cellOf_xr (by omega) (by omega), ha, Nat.add_sub_cancel_left]

theorem cellOf_xi_index {i : Nat} (h : i < 2048) : cellOf (BitVec.ofNat 16 (0x1000 + i)) = .xi i := by
  have ha : (BitVec.ofNat 16 (0x1000 + i)).toNat = 0x1000 + i := Nat.mod_eq_of_lt (by omega)
  rw [cellOf_xi (by omega) (by omega), ha, Nat.add_sub_cancel_left]

theorem cellOf_mag_index {i : Nat} (h : i < 2048) : cellOf (BitVec.ofNat 16 (0x1800 + i)) = .mag i := by
  have ha : (BitVec.ofNat 16 (0x1800 + i)).toNat = 0x1800 + i := Nat.mod_eq_of_lt (by omega)
  rw [cellOf_mag (by omega) (by omega), ha, Nat.add_sub_cancel_left]

theorem cellOf_pix_index {y : Nat} (h : y < 1024) : cellOf (BitVec.ofNat 16 (0x2000 + y)) = .pix y := by
  have ha : (BitVec.ofNat 16 (0x2000 + y)).toNat = 0x2000 + y := Nat.mod_eq_of_lt (by omega)
  rw [cellOf_pix (by omega) (by omega), ha, Nat.add_sub_cancel_left]

theorem cellOf_col_index {y : Nat} (h : y < 1024) : cellOf (BitVec.ofNat 16 (0x2400 + y)) = .col y := by
  have ha : (BitVec.ofNat 16 (0x2400 + y)).toNat = 0x2400 + y := Nat.mod_eq_of_lt (by omega)
  rw [cellOf_col (by omega) (by omega), ha, Nat.add_sub_cancel_left]

/-- Above the buffers and `COL` and below the registers stand `PROM`, a gap and `WROM`. -/
theorem cellOf_rom {a : Addr} (h : 0x2800 ≤ a.toNat) (h' : a.toNat < 0x3800) :
    cellOf a = if a.toNat < 0x2900 then .prom (a.toNat - 0x2800) else if a.toNat < 0x3000 then .reserved
      else .wrom (a.toNat - 0x3000) := by
  rw [cellOf, if_neg (by omega), if_neg (by omega), if_neg (by omega), if_neg (by omega), if_neg (by omega), if_neg (by omega),
    if_pos h']

theorem cellOf_prom_index {i : Nat} (h : i < 256) : cellOf (BitVec.ofNat 16 (0x2800 + i)) = .prom i := by
  have ha : (BitVec.ofNat 16 (0x2800 + i)).toNat = 0x2800 + i := Nat.mod_eq_of_lt (by omega)
  rw [cellOf_rom (by omega) (by omega), if_pos (by omega), ha, Nat.add_sub_cancel_left]

theorem cellOf_wrom_index {i : Nat} (h : i < 2048) : cellOf (BitVec.ofNat 16 (0x3000 + i)) = .wrom i := by
  have ha : (BitVec.ofNat 16 (0x3000 + i)).toNat = 0x3000 + i := Nat.mod_eq_of_lt (by omega)
  rw [cellOf_rom (by omega) (by omega), if_neg (by omega), if_neg (by omega), ha, Nat.add_sub_cancel_left]

@[simp] theorem cellOf_twlen : cellOf 0x3803#16 = .twlen := by decide +kernel
@[simp] theorem cellOf_id : cellOf 0x3805#16 = .id := by decide +kernel
@[simp] theorem cellOf_errInfo : cellOf 0x3806#16 = .errInfo := by decide +kernel

theorem registerOf_of_seven_le {k : Nat} (h : 7 ≤ k) : registerOf k = .reserved := by
  obtain ⟨k, rfl⟩ := Nat.exists_eq_add_of_le' h
  rfl

/-- The reserved addresses: the gap above `PROM`, and everything above the registers. -/
theorem cellOf_reserved {a : Addr} (h : (0x2900 ≤ a.toNat ∧ a.toNat < 0x3000) ∨ 0x3807 ≤ a.toNat) : cellOf a = .reserved := by
  obtain ⟨h1, h2⟩ | h1 := h
  · rw [cellOf_rom (by omega) (by omega), if_neg (by omega), if_pos h2]
  · rw [cellOf_high (by omega), registerOf_of_seven_le (by omega)]

end Sys2Proof.Machine
end

section
/-! ### What a read answers (R63) -/
namespace Sys2Proof.Machine

theorem setWidth_eq_zero_append {w : Nat} (x : BitVec w) (k : Nat) : x.setWidth (k + w) = 0#k ++ x :=
  BitVec.eq_of_toNat_eq (by rw [BitVec.toNat_setWidth_of_le (Nat.le_add_left w k)]; simp)

theorem setWidth_append_eq_append {v w : Nat} (x : BitVec v) (y : BitVec w) (k : Nat) :
    (x ++ y).setWidth (k + w) = x.setWidth k ++ y := by
  rw [BitVec.setWidth_append_of_eq rfl, BitVec.setWidth_eq]

theorem cellOfSample_eq_append (x : Sample) : cellOfSample x = 0#31 ++ BitVec.ofBool x.nn ++ x.v :=
  (setWidth_append_eq_append _ x.v 32).trans (congrArg (· ++ x.v) (setWidth_eq_zero_append _ 31))

theorem cellOfIntensity_eq_append (p : Intensity) : cellOfIntensity p = 0#56 ++ p := setWidth_eq_zero_append p 56

theorem cellOfColor_eq_append (c : Color) : cellOfColor c = 0#40 ++ c := setWidth_eq_zero_append c 40

theorem statusWord_eq_append (s : State) : statusWord s = 0#56 ++ s.errCode ++ 0#3 ++ BitVec.ofBool s.err :=
  calc statusWord s
    _ = (s.errCode ++ 0#3).setWidth 63 ++ BitVec.ofBool s.err := setWidth_append_eq_append _ _ 63
    _ = s.errCode.setWidth 60 ++ 0#3 ++ BitVec.ofBool s.err := congrArg (· ++ _) (setWidth_append_eq_append _ 0#3 60)
    _ = 0#56 ++ s.errCode ++ 0#3 ++ BitVec.ofBool s.err := congrArg (· ++ 0#3 ++ _) (setWidth_eq_zero_append _ 56)

/-- The refused reads are those that answer `ERR`. -/
theorem readCell_eq_err_iff {s : State} {c : PortCell} : readCell s c = .err ↔ c.readRefused = true := by
  cases c <;> simp [readCell, PortCell.readRefused]

theorem getD_eq_getD_of_isNone_eq_false {α : Type} {o : Option α} (h : o.isNone = false) (a b : α) : o.getD a = o.getD b := by
  obtain ⟨v, rfl⟩ := Option.isSome_iff_exists.1 (Option.isNone_eq_false_iff.1 h)
  rfl

/-- A read of a cell that holds a value draws no free value (U3). -/
theorem readCell_draw_of_written {s : State} {c : PortCell} (h : c.unwritten s = false) (k : Nat) :
    readCell { s with draw := k } c = readCell s c := by
  cases c with
  | smp i => exact congrArg (fun x => Resp.data (cellOfSample x)) (getD_eq_getD_of_isNone_eq_false h _ _)
  | xr i | xi i | mag i => exact congrArg Resp.data (getD_eq_getD_of_isNone_eq_false h _ _)
  | pix y => exact congrArg (fun p => Resp.data (cellOfIntensity p)) (getD_eq_getD_of_isNone_eq_false h _ _)
  | col y => exact congrArg (fun p => Resp.data (cellOfColor (prom p))) (getD_eq_getD_of_isNone_eq_false h _ _)
  | _ => rfl

theorem readCell_setPort (p : List Txn) (s : State) (c : PortCell) : readCell (s.setPort p) c = readCell s c := by
  cases c <;> rfl

theorem step_of_read {s : State} {a : Addr} {rest : List Txn} (h : s.port = .read a :: rest) :
    step s = .next ((s.setPort rest).complete (some (hostRead a s))) := by
  rw [step_of_port_cons h, runTxn_read, hostRead, readCell_setPort, hostRead]

/-- Settles O40: each address is looked up in the map once, and a read uses the draw counter for an unwritten cell only. -/
theorem hostReadMap : Obligations.HostReadMap := by
  refine ⟨fun s => ⟨fun i hi => ⟨?_, ?_, ?_, ?_, ?_⟩, fun y hy => ⟨?_, ?_⟩, fun i hi => ?_, ?_, hostRead_mlen s, ?_, ?_, ?_, ?_, ?_,
    fun a ha => ?_⟩, fun s a rest h => step_of_read h, fun s a k h => readCell_draw_of_written h k⟩
  · rw [hostRead, cellOf_smp_index hi, readCell, cellOfSample_eq_append]
  · rw [hostRead, cellOf_xr_index hi, readCell, F64.enc]
  · rw [hostRead, cellOf_xi_index hi, readCell, F64.enc]
  · rw [hostRead, cellOf_mag_index hi, readCell, F64.enc]
  · rw [hostRead, cellOf_wrom_index hi, readCell, F64.enc]
  · rw [hostRead, cellOf_pix_index hy, readCell, cellOfIntensity_eq_append]
  · rw [hostRead, cellOf_col_index hy, readCell, cellOfColor_eq_append]
  · rw [hostRead, cellOf_prom_index hi, readCell, cellOfColor_eq_append]
  · rw [hostRead_status, statusWord_eq_append]
  · rw [hostRead, cellOf_twlen, readCell]
  · rw [hostRead, cellOf_id, readCell, Config.idWord]
  · rw [hostRead, cellOf_errInfo, readCell]
  · exact congrArg (readCell s) cellOf_cmdAddr
  · exact congrArg (readCell s) cellOf_ctrlAddr
  · rw [hostRead, cellOf_reserved ha, readCell]

end Sys2Proof.Machine
end

section
/-! ### What a write does (R64) -/
namespace Sys2Proof.Machine

variable {s t : State}

/-- What a write to anything but `CMD` does: the refused ones answer `ERR` and change nothing, the others answer `OK`. -/
theorem writeCell_of_ne_cmd {c : PortCell} (hc : c ≠ .cmd) (d : Cell) (s : State) :
    (c.writeRefused d = true ∧ writeCell d s c = .next (s, .err)) ∨
      (c.writeRefused d = false ∧ ∃ t, writeCell d s c = .next (t, .ok)) := by
  cases c with
  | smp _ | xr _ | xi _ | mag _ | pix _ | ctrl => exact .inr ⟨rfl, _, rfl⟩
  | col _ | prom _ | wrom _ | status | twlen | id | errInfo | reserved => exact .inl ⟨rfl, rfl⟩
  | mlen =>
    by_cases hd : d.toNat ≤ Config.nMax
    · exact .inr ⟨decide_eq_false (Nat.not_lt.2 hd), _, if_pos hd⟩
    · exact .inl ⟨decide_eq_true (Nat.lt_of_not_le hd), if_neg hd⟩
  | cmd => exact absurd rfl hc

theorem writeCell_of_writeRefused {c : PortCell} {d : Cell} (h : c.writeRefused d = true) (s : State) :
    writeCell d s c = .next (s, .err) := by
  have hc : c ≠ .cmd := by rintro rfl; cases h
  obtain ⟨-, hw⟩ | ⟨hr, -⟩ := writeCell_of_ne_cmd hc d s
  · exact hw
  · cases h.symm.trans hr

/-- `COL`, the ROMs, the registers that are only read, and the reserved addresses refuse every write. -/
theorem writeRefused_cellOf {a : Addr} (d : Cell) (h : (0x2400 ≤ a.toNat ∧ a.toNat < 0x3800) ∨ a = 0x3801#16 ∨ a = 0x3803#16 ∨
    a = 0x3805#16 ∨ 0x3806 ≤ a.toNat) : (cellOf a).writeRefused d = true := by
  obtain ⟨h1, h2⟩ | rfl | rfl | rfl | h1 := h
  · by_cases hcol : a.toNat < 0x2800
    · rw [cellOf_col h1 hcol, PortCell.writeRefused]
    · rw [cellOf_rom (by omega) h2]
      split_ifs <;> rfl
  · rw [cellOf_status, PortCell.writeRefused]
  · rw [cellOf_twlen, PortCell.writeRefused]
  · rw [cellOf_id, PortCell.writeRefused]
  · obtain h2 | h2 := Nat.eq_or_lt_of_le h1
    · rw [show a = 0x3806#16 from BitVec.eq_of_toNat_eq h2.symm, cellOf_errInfo, PortCell.writeRefused]
    · rw [cellOf_reserved (.inr h2), PortCell.writeRefused]

/-- A write to `CMD` that answers `ERR` is refused while halted, or takes a fault (R221). -/
theorem cmdWrite_err {d : Cell} (h : cmdWrite d s = .next (t, .err)) :
    t = s ∨ (s.err = false ∧ ∃ c, t = s.latchFault c d) := by
  obtain ⟨-, hp⟩ | ⟨hs, -, hp⟩ | ⟨hs, i, u, -, -, hp⟩ := cmdWrite_next.1 h
  · exact .inl (congrArg Prod.fst hp)
  · exact .inr ⟨hs, _, congrArg Prod.fst hp⟩
  · obtain ⟨rfl, hr⟩ := Prod.mk.inj hp
    have ht : t.err = true := by
      by_contra ht
      rw [cmdResp, if_neg ht] at hr
      cases hr
    obtain ⟨c, hc⟩ := cmdWrite_sets_err hs h ht
    exact .inr ⟨hs, c, congrArg Prod.fst hc⟩

theorem hostWrite_err {a : Addr} {d : Cell} (h : hostWrite a d s = .next (t, .err)) :
    t = s ∨ (a = cmdAddr ∧ s.err = false ∧ ∃ c, t = s.latchFault c d) := by
  by_cases hc : cellOf a = .cmd
  · rw [hostWrite, hc, writeCell] at h
    exact (cmdWrite_err h).imp_right fun hf => ⟨eq_cmdAddr hc, hf⟩
  · obtain ⟨-, hw⟩ | ⟨-, u, hw⟩ := writeCell_of_ne_cmd hc d s
    · cases h.symm.trans hw
      exact .inl rfl
    · cases h.symm.trans hw

/-- Settles O41: each address is looked up in the map once; of the writes that answer `ERR` only fault entry changes the state. -/
theorem hostWriteMap : Obligations.HostWriteMap := by
  refine ⟨fun s d => ⟨fun i hi => ⟨?_, ?_, ?_, ?_⟩, fun y hy => ?_, hostWrite_mlen d s, hostWrite_cmdAddr d s, ?_, fun a ha => ?_⟩,
    fun s t a d h => ?_⟩
  · rw [hostWrite, cellOf_smp_index hi, writeCell, sampleOfCell]
    rfl
  · rw [hostWrite, cellOf_xr_index hi, writeCell, F64.dec]
  · rw [hostWrite, cellOf_xi_index hi, writeCell, F64.dec]
  · rw [hostWrite, cellOf_mag_index hi, writeCell, F64.dec]
  · rw [hostWrite, cellOf_pix_index hy, writeCell, intensityOfCell]
    rfl
  · exact congrArg (writeCell d s) cellOf_ctrlAddr
  · exact writeCell_of_writeRefused (writeRefused_cellOf d ha) s
  · exact (hostWrite_err h).imp_right fun ⟨ha, hs, c, ht⟩ => ⟨ha, hs, faultCode c, ht⟩

end Sys2Proof.Machine
end

section
/-! ### Every transaction is answered (R272, R330) -/
namespace Sys2Proof.Machine

theorem cmdWrite_total (d : Cell) (s : State) : ∃ p, cmdWrite d s = .next p := by
  unfold cmdWrite
  split_ifs
  · exact ⟨_, rfl⟩
  · cases decode d with
    | error e => exact ⟨_, rfl⟩
    | ok i =>
      obtain ⟨t, ht⟩ := exec_total i s
      exact ⟨_, withCmdResp_next.2 ⟨t, ht, rfl⟩⟩

theorem hostWrite_total (a : Addr) (d : Cell) (s : State) : ∃ p, hostWrite a d s = .next p := by
  by_cases hc : cellOf a = .cmd
  · rw [hostWrite, hc, writeCell]
    exact cmdWrite_total d s
  · obtain ⟨-, hw⟩ | ⟨-, t, hw⟩ := writeCell_of_ne_cmd hc d s
    · exact ⟨_, hw⟩
    · exact ⟨_, hw⟩

theorem runTxn_total (x : Txn) (s : State) : ∃ t, runTxn x s = .next t := by
  cases x with
  | read a => exact ⟨_, rfl⟩
  | write a d =>
    obtain ⟨p, hp⟩ := hostWrite_total a d s
    exact ⟨_, runTxn_write_next.2 ⟨p, hp, rfl⟩⟩
  | reset => exact ⟨_, rfl⟩

theorem step_total (s : State) : ∃ t, step s = .next t := by
  cases hp : s.port with
  | nil => exact ⟨s, step_of_port_nil hp⟩
  | cons x rest =>
    rw [step_of_port_cons hp]
    exact runTxn_total x _

end Sys2Proof.Machine
end

section
/-! ### The strict step: when it refuses, and that otherwise it is the step (R65, R320, U3, U10) -/
namespace Sys2Proof.Machine

variable {s t : State} {rest : List Txn}

theorem strictStep_of_port_nil (h : s.port = []) : strictStep s = step s := by rw [strictStep, h]

theorem strictStep_of_port_cons {x : Txn} (h : s.port = x :: rest) : strictStep s =
    if hostErrorTxn x then .refused .hostError else if txnReadsUnwritten x s then .refused .unwritten else step s := by
  rw [strictStep, h]

theorem strictStep_eq_step {x : Txn} (h : s.port = x :: rest) (he : hostErrorTxn x = false) (hu : txnReadsUnwritten x s = false) :
    strictStep s = step s := by
  rw [strictStep_of_port_cons h, he, hu]
  rfl

theorem step_ne_refused (s : State) (r : Refusal) : step s ≠ .refused r := by
  obtain ⟨t, ht⟩ := step_total s
  rw [ht]
  nofun

theorem strictStep_eq_hostError_iff {x : Txn} (h : s.port = x :: rest) :
    strictStep s = .refused .hostError ↔ hostErrorTxn x = true := by
  rw [strictStep_of_port_cons h]
  split_ifs with he hu
  · simp [he]
  · simp [he]
  · simp [he, step_ne_refused]

theorem strictStep_eq_unwritten_iff {x : Txn} (h : s.port = x :: rest) (he : hostErrorTxn x = false) :
    strictStep s = .refused .unwritten ↔ txnReadsUnwritten x s = true := by
  rw [strictStep_of_port_cons h, he, if_neg Bool.false_ne_true]
  split_ifs with hu
  · simp [hu]
  · simp [hu, step_ne_refused]

theorem strictStep_next (h : strictStep s = .next t) : step s = .next t := by
  cases hp : s.port with
  | nil => rwa [strictStep_of_port_nil hp] at h
  | cons x rest =>
    rw [strictStep_of_port_cons hp] at h
    split_ifs at h
    exact h

/-- A host error is an access that answers `ERR` and is no write to `CMD` (R65, U10). -/
theorem hostErrorTxn_iff {x : Txn} (h : s.port = x :: rest) :
    hostErrorTxn x = true ↔ isCmdWrite x = false ∧ ∃ t, step s = .next t ∧ t.resps = .err :: s.resps := by
  cases x with
  | read a =>
    rw [step_of_read h, hostErrorTxn, ← readCell_eq_err_iff (s := s)]
    simp [isCmdWrite, hostRead]
  | write a d =>
    rw [step_of_port_cons h, runTxn_write, hostErrorTxn]
    by_cases hc : cellOf a = .cmd
    · simp [eq_cmdAddr hc, isCmdWrite, PortCell.writeRefused]
    · have ha : a ≠ cmdAddr := by
        rintro rfl
        exact hc cellOf_cmdAddr
      obtain ⟨hr, hw⟩ | ⟨hr, t, hw⟩ := writeCell_of_ne_cmd hc d (s.setPort rest)
      · simp [hr, hw, isCmdWrite, ha, completeTxn]
      · simp [hr, hw, isCmdWrite, ha, completeTxn]
  | reset =>
    rw [step_of_reset h]
    simp [hostErrorTxn]

/-! ### Reads of cells that hold no value -/

theorem strictStep_read_eq_unwritten_iff {a : Addr} {c : PortCell} (hc : cellOf a = c) (hr : c.readRefused = false)
    (h : s.port = .read a :: rest) : strictStep s = .refused .unwritten ↔ c.unwritten s = true := by
  subst hc
  exact strictStep_eq_unwritten_iff h hr

/-! ### Commands that read cells that hold no value -/

theorem Cells.missing_iff {α : Type} {c : Cells α} {lo hi : Nat} :
    c.missing lo hi = true ↔ ∃ i, lo ≤ i ∧ i < hi ∧ c.look i = none := by
  simp only [Cells.missing, List.any_eq_true, List.mem_range, Bool.and_eq_true, decide_eq_true_eq, Option.isNone_iff_eq_none]
  exact exists_congr fun i => and_left_comm

theorem Cells.missing_zero_iff {α : Type} {c : Cells α} {hi : Nat} : c.missing 0 hi = true ↔ ∃ i, i < hi ∧ c.look i = none := by
  simp [Cells.missing_iff]

theorem hostErrorTxn_cmdWrite (d : Cell) : hostErrorTxn (.write cmdAddr d) = false := by
  rw [hostErrorTxn, cellOf_cmdAddr, PortCell.writeRefused]

theorem txnReadsUnwritten_cmdWrite (d : Cell) (s : State) : txnReadsUnwritten (.write cmdAddr d) s = wordReadsUnwritten d s := by
  rw [txnReadsUnwritten, cellOf_cmdAddr]
  rfl

theorem wordReadsUnwritten_of_decode {d : Cell} {c : Instr} (hs : s.err = false) (hd : decode d = .ok c) :
    wordReadsUnwritten d s = cmdReadsUnwritten c s := by
  rw [wordReadsUnwritten, hd, hs]
  rfl

theorem wordReadsUnwritten_of_not_executed {d : Cell} (h : s.err = true ∨ ∃ e, decode d = .error e) :
    wordReadsUnwritten d s = false := by
  obtain hs | ⟨e, hd⟩ := h
  · rw [wordReadsUnwritten, hs]
    cases decode d <;> rfl
  · rw [wordReadsUnwritten, hd]

/-- Some cell the rule of a command reads holds no value, its operands being good (R123, R144, R148, R150, R181, R223). -/
def RuleReadsUnwritten (c : Instr) (s : State) : Prop :=
  match c with
  | .nop => False
  | .win _ | .frame => ∃ i, i < 2048 ∧ s.smp.look i = none
  | .fft n _ => ∃ i, i < n ∧ (s.xr.look i = none ∨ s.xi.look i = none)
  | .fftr n | .mag n => ∃ i, i < n ∧ s.xr.look i = none
  | .scale h => ∃ j, 1 ≤ j ∧ j < h ∧ s.mag.look j = none

/-- A command that faults reads no cell (R275); any other reads those of its rule. -/
theorem cmdReadsUnwritten_iff {c : Instr} :
    cmdReadsUnwritten c s = true ↔ tableCode c s.mlen = none ∧ RuleReadsUnwritten c s := by
  cases c with
  | nop => simp [cmdReadsUnwritten, RuleReadsUnwritten]
  | win len => simp [cmdReadsUnwritten, RuleReadsUnwritten, tableCode, legalFrame_iff, Cells.missing_zero_iff, Config.nMax]
  | fft nr ni =>
    by_cases hn : nr ∈ legalLengths
    · simp [cmdReadsUnwritten, RuleReadsUnwritten, tableCode, legalLen_iff_mem, Cells.missing_zero_iff, hn, and_or_left, exists_or]
    · simp [cmdReadsUnwritten, tableCode, legalLen_iff_mem, hn]
  | fftr n => simp [cmdReadsUnwritten, RuleReadsUnwritten, tableCode, legalLen_iff_mem, Cells.missing_zero_iff]
  | mag n => simp [cmdReadsUnwritten, RuleReadsUnwritten, tableCode, legalLen_iff_mem, Cells.missing_zero_iff]
  | scale h =>
    have hcode : tableCode (.scale h) s.mlen = none ↔ legalHeight h s.mlen = true := by
      rw [legalHeight_iff, tableCode]
      split_ifs with hf
      · exact iff_of_false nofun (by omega)
      · exact iff_of_true rfl (by omega)
    rw [hcode, cmdReadsUnwritten, Bool.and_eq_true, Cells.missing_iff, RuleReadsUnwritten]
  | frame => simp [cmdReadsUnwritten, RuleReadsUnwritten, tableCode, Cells.missing_zero_iff, Config.nMax]

section Command
variable {d : Cell} (h : s.port = .write cmdAddr d :: rest)
include h

theorem strictStep_cmd_of_not_executed (hd : s.err = true ∨ ∃ e, decode d = .error e) : strictStep s = step s :=
  strictStep_eq_step h (hostErrorTxn_cmdWrite d)
    ((txnReadsUnwritten_cmdWrite d s).trans (wordReadsUnwritten_of_not_executed hd))

variable {c : Instr} (hs : s.err = false) (hd : decode d = .ok c)
include hs hd

theorem strictStep_cmd_eq_unwritten_iff :
    strictStep s = .refused .unwritten ↔ tableCode c s.mlen = none ∧ RuleReadsUnwritten c s := by
  rw [strictStep_eq_unwritten_iff h (hostErrorTxn_cmdWrite d), txnReadsUnwritten_cmdWrite, wordReadsUnwritten_of_decode hs hd,
    cmdReadsUnwritten_iff]

theorem strictStep_cmd_eq_unwritten_iff_of_good (hc : tableCode c s.mlen = none) :
    strictStep s = .refused .unwritten ↔ RuleReadsUnwritten c s := by
  rw [strictStep_cmd_eq_unwritten_iff h hs hd, and_iff_right hc]

/-- `NOP` and the commands that fault read no cell. -/
theorem strictStep_cmd_of_nop_or_faults (hc : c = .nop ∨ tableCode c s.mlen ≠ none) : strictStep s = step s := by
  refine strictStep_eq_step h (hostErrorTxn_cmdWrite d) ?_
  rw [txnReadsUnwritten_cmdWrite, wordReadsUnwritten_of_decode hs hd, Bool.eq_false_iff, ne_eq, cmdReadsUnwritten_iff]
  rintro ⟨hn, hr⟩
  obtain rfl | hf := hc
  · exact hr
  · exact hf hn

end Command

/-- Settles O51: the strict step looks at the transaction to come before it is the step; which cells a command reads is said once, in
`cmdReadsUnwritten_iff`. -/
theorem strictStepRefusesHostErrors : Obligations.StrictStepRefusesHostErrors := by
  refine ⟨fun s x rest h => ⟨(strictStep_eq_hostError_iff h).trans (hostErrorTxn_iff h), strictStep_eq_step h⟩,
    fun s => strictStep_of_port_nil, fun s t => strictStep_next, fun s i rest hi => ⟨fun h => ?_, fun h => ?_, fun h => ?_, fun h => ?_⟩,
    fun s y rest hy => ⟨fun h => ?_, fun h => ?_⟩, fun s d rest h => ⟨strictStep_cmd_of_not_executed h, fun c hs hd =>
      ⟨strictStep_cmd_of_nop_or_faults h hs hd, ?_, fun n hn => ?_, fun n hn => ?_, fun k h1 hk hm => ?_⟩⟩⟩
  · exact (strictStep_read_eq_unwritten_iff (cellOf_smp_index hi) rfl h).trans Option.isNone_iff_eq_none
  · exact (strictStep_read_eq_unwritten_iff (cellOf_xr_index hi) rfl h).trans Option.isNone_iff_eq_none
  · exact (strictStep_read_eq_unwritten_iff (cellOf_xi_index hi) rfl h).trans Option.isNone_iff_eq_none
  · exact (strictStep_read_eq_unwritten_iff (cellOf_mag_index hi) rfl h).trans Option.isNone_iff_eq_none
  · exact (strictStep_read_eq_unwritten_iff (cellOf_pix_index hy) rfl h).trans Option.isNone_iff_eq_none
  · exact (strictStep_read_eq_unwritten_iff (cellOf_col_index hy) rfl h).trans Option.isNone_iff_eq_none
  · rintro (rfl | rfl)
    · exact strictStep_cmd_eq_unwritten_iff_of_good h hs hd rfl
    · exact strictStep_cmd_eq_unwritten_iff_of_good h hs hd rfl
  · rintro rfl
    exact strictStep_cmd_eq_unwritten_iff_of_good h hs hd (by simp [tableCode, hn])
  · rintro (rfl | rfl)
    · exact strictStep_cmd_eq_unwritten_iff_of_good h hs hd (by simp [tableCode, hn])
    · exact strictStep_cmd_eq_unwritten_iff_of_good h hs hd (by simp [tableCode, hn])
  · rintro rfl
    exact strictStep_cmd_eq_unwritten_iff_of_good h hs hd (if_neg (by omega))

end Sys2Proof.Machine
end

section
/-! ### The fields of a packed word (R90), and the round trip from a command (R91 to R93) -/
namespace Sys2Proof

theorem bField_lt (w : CmdWord) : bField w < 4096 := Nat.mod_lt _ (by decide)

theorem aField_lt (w : CmdWord) : aField w < 4096 := Nat.mod_lt _ (by decide)

theorem toNat_packWord {op ia b a : Nat} (ho : op < 16) (hi : ia < 2) (hb : b < 4096) (ha : a < 4096) :
    (packWord op ia b a).toNat = op * 2 ^ 28 + ia * 2 ^ 27 + b * 2 ^ 12 + a := by
  rw [packWord, BitVec.toNat_ofNat, Nat.mod_eq_of_lt]
  omega

/-- The fields a word is packed from are its fields, where they fit. -/
theorem fields_packWord {op ia b a : Nat} (ho : op < 16) (hi : ia < 2) (hb : b < 4096) (ha : a < 4096) :
    rsvField (packWord op ia b a) = 0 ∧ opField (packWord op ia b a) = op ∧ iaField (packWord op ia b a) = ia ∧
      bField (packWord op ia b a) = b ∧ aField (packWord op ia b a) = a := by
  simp only [rsvField, opField, iaField, bField, aField, toNat_packWord ho hi hb ha]
  refine ⟨?_, ?_, ?_, ?_, ?_⟩ <;> omega

/-- Decoding a packed word is the choice of the row by its fields. -/
theorem decodeWord_packWord {op ia b a : Nat} (ho : op < 16) (hi : ia < 2) (hb : b < 4096) (ha : a < 4096) :
    decodeWord (packWord op ia b a) = match (generalizing := false) op with
      | 0 => decodePlain .nop ia b a
      | 1 => decodeOne .win ia b a
      | 2 => decodeTransform ia b a
      | 3 => decodeOne .mag ia b a
      | 4 => decodeOne .scale ia b a
      | 5 => decodePlain .frame ia b a
      | _ => .error .reservedOp := by
  obtain ⟨hr, hop, hia, hbf, haf⟩ := fields_packWord ho hi hb ha
  have h : decodeWord (packWord op ia b a) = _ := if_neg (not_not.2 hr)
  rw [hop, hia, hbf, haf] at h
  exact h

theorem fitsField_iff {v : Nat} : fitsField v = true ↔ v < 4096 := decide_eq_true_iff

theorem decodeWord_encode {i : Instr} (h : i.wf = true) : decodeWord (encode i) = .ok i := by
  have h0 : (0 : Nat) < 4096 := by decide
  cases i with
  | nop | frame => exact decodeWord_packWord (by decide) (by decide) h0 h0
  | win | fftr | mag | scale => exact decodeWord_packWord (by decide) (by decide) h0 (fitsField_iff.1 h)
  | fft nr ni =>
    obtain ⟨hr, hi⟩ := (Bool.and_eq_true _ _).mp h
    exact decodeWord_packWord (by decide) (by decide) (fitsField_iff.1 hi) (fitsField_iff.1 hr)

/-- Decoding write data is decoding its low word, where the high half is 0 (R93). -/
theorem decode_eq (d : Cell) :
    decode d = if d.extractLsb' 32 32 = 0#32 then decodeWord (d.extractLsb' 0 32) else .error .highData := by
  have hd := d.isLt
  have hhigh : d.extractLsb' 32 32 = 0#32 ↔ d.toNat / 2 ^ 32 = 0 := by
    rw [← BitVec.toNat_inj, BitVec.extractLsb'_toNat, Nat.shiftRight_eq_div_pow, BitVec.toNat_ofNat]
    omega
  simp only [decode, BitVec.setWidth_eq_extractLsb' (show 32 ≤ 64 by decide), ne_eq, ite_not, hhigh]

theorem decode_eq_ok {d : Cell} {i : Instr} :
    decode d = .ok i ↔ d.extractLsb' 32 32 = 0#32 ∧ decodeWord (d.extractLsb' 0 32) = .ok i := by
  rw [decode_eq]
  split <;> simp_all

theorem decode_error_iff {d : Cell} : (∃ e, decode d = .error e) ↔
    d.extractLsb' 32 32 ≠ 0#32 ∨ ∃ e, decodeWord (d.extractLsb' 0 32) = .error e := by
  rw [decode_eq]
  split <;> simp_all

/-- Settles O1: the write data of a command has high half 0 and its word below, whose fields the decoder reads back. -/
theorem decodeAfterEncodeIsTheCommand : Obligations.DecodeAfterEncodeIsTheCommand := fun i h => by
  have hw := (encode i).isLt
  refine decode_eq_ok.2 ⟨?_, ?_⟩
  · apply BitVec.eq_of_toNat_eq
    rw [cmdData, BitVec.extractLsb'_toNat, Nat.shiftRight_eq_div_pow, BitVec.toNat_setWidth, BitVec.toNat_ofNat]
    omega
  · rw [cmdData, ← BitVec.setWidth_eq_extractLsb' (by decide), BitVec.setWidth_setWidth_of_le _ (by decide), BitVec.setWidth_eq]
    exact decodeWord_encode h

end Sys2Proof
end

section
/-! ### What decodes has the operands of its word (R92) -/
namespace Sys2Proof

/-- The command a word decodes to has the fields `a` and `b` of the word as its operands. -/
theorem command_of_decodeWord {w : CmdWord} {i : Instr} (h : decodeWord w = .ok i) :
    i.opcode.command (aField w) (bField w) = i := by
  rw [decodeWord] at h
  split at h
  case isTrue => cases h
  case isFalse =>
    split at h
    case h_1 | h_6 =>
      obtain ⟨-, -, -, rfl⟩ := decodePlain_eq_ok.1 h
      rfl
    case h_2 | h_4 | h_5 =>
      obtain ⟨-, -, rfl⟩ := decodeOne_eq_ok.1 h
      rfl
    case h_3 => obtain ⟨-, rfl⟩ | ⟨-, -, rfl⟩ := decodeTransform_eq_ok.1 h <;> rfl
    case h_7 => cases h

theorem Opcode.command_wf (o : Opcode) {a b : Nat} (ha : a < 4096) (hb : b < 4096) : (o.command a b).wf = true := by
  cases o with
  | nop | frame => rfl
  | win | fftr | mag | scale => exact fitsField_iff.2 ha
  | fft => exact (Bool.and_eq_true _ _).mpr ⟨fitsField_iff.2 ha, fitsField_iff.2 hb⟩

theorem Opcode.opcode_command (o : Opcode) (a b : Nat) : (o.command a b).opcode = o := by
  cases o <;> rfl

theorem wf_of_decodeWord {w : CmdWord} {i : Instr} (h : decodeWord w = .ok i) : i.wf = true := by
  rw [← command_of_decodeWord h]
  exact i.opcode.command_wf (aField_lt w) (bField_lt w)

/-- Settles O2: the operands of what decodes are fields of 12 bits, and the word is the one the encoder writes. -/
theorem encodeAfterDecodeIsTheWord : Obligations.EncodeAfterDecodeIsTheWord := fun _ _ h =>
  ⟨wf_of_decodeWord (decode_eq_ok.1 h).2, cmdData_of_decode h⟩

end Sys2Proof
end

section
/-! ### The rows of the opcode map (R92, R93) -/
namespace Sys2Proof

/-- Keeping the bits from `k` on is clearing the `k` bits below. -/
theorem and_allOnes_shiftLeft {n : Nat} (w : BitVec n) (k : Nat) :
    w &&& (BitVec.allOnes n <<< k) = w >>> k <<< k := by
  ext j hj
  by_cases h : j < k
  · simp [h]
  · simp [h, hj, show k + (j - k) = j by omega]

theorem toNat_and_allOnes_shiftLeft {n : Nat} (w : BitVec n) (k : Nat) :
    (w &&& (BitVec.allOnes n <<< k)).toNat = w.toNat / 2 ^ k * 2 ^ k := by
  rw [and_allOnes_shiftLeft, BitVec.toNat_shiftLeft, BitVec.toNat_ushiftRight, Nat.shiftLeft_eq,
    Nat.shiftRight_eq_div_pow, Nat.mod_eq_of_lt ((Nat.div_mul_le_self _ _).trans_lt w.isLt)]

/-- A row whose mask leaves out the low `k` bits spells `w` exactly when `w` is the pattern with the low `k` bits of `w` put in. -/
theorem OpcodeRow.spells_iff_of_mask {r : OpcodeRow} {w v : CmdWord} {k : Nat} (hm : r.mask = BitVec.allOnes 32 <<< k)
    (hv : v.toNat = r.pattern.toNat + w.toNat % 2 ^ k) : r.spells w = true ↔ v = w := by
  have hsplit := Nat.div_add_mod' w.toNat (2 ^ k)
  rw [OpcodeRow.spells, beq_iff_eq, hm, ← BitVec.toNat_inj, ← BitVec.toNat_inj, toNat_and_allOnes_shiftLeft, hv]
  omega

theorem mod_two_pow_24_eq_fields (w : CmdWord) : w.toNat % 2 ^ 24 = bField w * 2 ^ 12 + aField w := by
  rw [bField, aField, pow_add 2 12 12, Nat.mod_mul, Nat.add_comm, Nat.mul_comm (2 ^ 12)]

/-- A row spells `w` exactly when `w` is the word of the row's command with the operands of `w`. -/
theorem OpcodeRow.spells_iff_encode (w : CmdWord) : ∀ r ∈ opcodeMap,
    (r.spells w = true ↔ encode (r.opcode.command (aField w) (bField w)) = w) := by
  have h0 : (0 : Nat) < 4096 := by decide
  have ha := aField_lt w
  have hb := bField_lt w
  have hz : w.toNat % 2 ^ 0 = 0 := Nat.mod_one _
  simp only [opcodeMap, List.forall_mem_cons]
  refine ⟨?nop, ?win, ?fft, ?fftr, ?mag, ?scale, ?frame, List.forall_mem_nil _⟩
  case nop => exact spells_iff_of_mask (k := 0) rfl (congrArg (0 + ·) hz.symm)
  case win | fftr | mag | scale =>
    exact spells_iff_of_mask (k := 12) rfl (toNat_packWord (by decide) (by decide) h0 ha)
  case fft =>
    refine spells_iff_of_mask (k := 24) rfl (mod_two_pow_24_eq_fields w ▸ ?_)
    exact (toNat_packWord (by decide) (by decide) hb ha).trans (Nat.add_assoc _ _ _)
  case frame => exact spells_iff_of_mask (k := 0) rfl (congrArg (0x50000000 + ·) hz.symm)

theorem exists_row (o : Opcode) : ∃ r ∈ opcodeMap, r.opcode = o := by
  cases o <;> decide

theorem eq_of_opcode_eq {r q : OpcodeRow} (hr : r ∈ opcodeMap) (hq : q ∈ opcodeMap) (h : r.opcode = q.opcode) : r = q := by
  have hall : ∀ r ∈ opcodeMap, ∀ q ∈ opcodeMap, r.opcode = q.opcode → r = q := by decide
  exact hall r hr q hq h

/-- Decoding a word is finding its row in the opcode map (R93). -/
theorem decodeWord_eq_ok_iff_row {w : CmdWord} {i : Instr} : decodeWord w = .ok i ↔
    ∃ r ∈ opcodeMap, r.spells w = true ∧ i = r.opcode.command (aField w) (bField w) := by
  constructor
  · intro h
    obtain ⟨r, hr, ho⟩ := exists_row i.opcode
    have hi : r.opcode.command (aField w) (bField w) = i := ho ▸ command_of_decodeWord h
    exact ⟨r, hr, (OpcodeRow.spells_iff_encode w r hr).2 (hi ▸ encode_of_decodeWord h), hi.symm⟩
  · rintro ⟨r, hr, hs, rfl⟩
    have hw := decodeWord_encode (r.opcode.command_wf (aField_lt w) (bField_lt w))
    rwa [(OpcodeRow.spells_iff_encode w r hr).1 hs] at hw

/-- A word that two rows spell is the word of a command of each, so the commands are one. -/
theorem row_unique {w : CmdWord} {r q : OpcodeRow} (hr : r ∈ opcodeMap) (hq : q ∈ opcodeMap) (hrw : r.spells w = true)
    (hqw : q.spells w = true) : r = q := by
  have hdec := decodeWord_eq_ok_iff_row.2 ⟨r, hr, hrw, rfl⟩
  rw [decodeWord_eq_ok_iff_row.2 ⟨q, hq, hqw, rfl⟩, Except.ok.injEq] at hdec
  have ho := congrArg Instr.opcode hdec
  rw [Opcode.opcode_command, Opcode.opcode_command] at ho
  exact eq_of_opcode_eq hr hq ho.symm

/-- A field of the low word of write data is a field of the write data. -/
theorem lowWord_field (d : Cell) {k l : Nat} (h : k + l ≤ 32) :
    (d.extractLsb' 0 32).toNat / 2 ^ k % 2 ^ l = (d.extractLsb' k l).toNat := by
  apply Nat.eq_of_testBit_eq
  intro j
  simp only [BitVec.extractLsb'_toNat, Nat.testBit_mod_two_pow, Nat.testBit_div_two_pow, Nat.testBit_shiftRight, Nat.zero_add]
  by_cases hj : j < l
  · simp [hj, show k + j < 32 by omega, Nat.add_comm j k]
  · simp [hj]

theorem aField_lowWord (d : Cell) : aField (d.extractLsb' 0 32) = (d.extractLsb' 0 12).toNat := by
  rw [← lowWord_field d (by decide), pow_zero, Nat.div_one, aField]

theorem bField_lowWord (d : Cell) : bField (d.extractLsb' 0 32) = (d.extractLsb' 12 12).toNat := lowWord_field d (by decide)

theorem rsvField_lowWord (d : Cell) : rsvField (d.extractLsb' 0 32) = (d.extractLsb' 24 3).toNat := lowWord_field d (by decide)

theorem iaField_lowWord (d : Cell) : iaField (d.extractLsb' 0 32) = (d.extractLsb' 27 1).toNat :=
  lowWord_field d (k := 27) (l := 1) (by decide)

theorem opField_lowWord (d : Cell) : opField (d.extractLsb' 0 32) = (d.extractLsb' 28 4).toNat := by
  have hlt : opField (d.extractLsb' 0 32) < 2 ^ 4 := Nat.div_lt_of_lt_mul (d.extractLsb' 0 32).isLt
  exact (Nat.mod_eq_of_lt hlt).symm.trans (lowWord_field d (by decide))

/-- Write data decodes to `i` exactly when its high half is 0 and a row spells its low word, `i` being the row's command (R93). -/
theorem decode_eq_ok_iff_row {d : Cell} {i : Instr} : decode d = .ok i ↔
    d.extractLsb' 32 32 = 0#32 ∧ ∃ r ∈ opcodeMap, r.spells (d.extractLsb' 0 32) = true ∧
      i = r.opcode.command (d.extractLsb' 0 12).toNat (d.extractLsb' 12 12).toNat := by
  rw [decode_eq_ok, decodeWord_eq_ok_iff_row, aField_lowWord, bField_lowWord]

theorem decode_error_iff_not_ok {d : Cell} : (∃ e, decode d = .error e) ↔ ¬ ∃ i, decode d = .ok i := by
  cases decode d <;> simp

/-- Write data is illegal exactly when its high half is not 0 or no row spells its low word (R93). -/
theorem decode_error_iff_no_row {d : Cell} : (∃ e, decode d = .error e) ↔
    d.extractLsb' 32 32 ≠ 0#32 ∨ ∀ r ∈ opcodeMap, r.spells (d.extractLsb' 0 32) = false := by
  have hok : (∃ i, decode d = .ok i) ↔
      d.extractLsb' 32 32 = 0#32 ∧ ∃ r ∈ opcodeMap, r.spells (d.extractLsb' 0 32) = true :=
    ⟨fun ⟨_, h⟩ => (decode_eq_ok_iff_row.1 h).imp_right fun ⟨r, hr, hs, _⟩ => ⟨r, hr, hs⟩,
      fun ⟨hhigh, r, hr, hs⟩ => ⟨_, decode_eq_ok_iff_row.2 ⟨hhigh, r, hr, hs, rfl⟩⟩⟩
  rw [decode_error_iff_not_ok, hok]
  simp only [not_and_or, not_exists, Bool.not_eq_true, ne_eq, imp_iff_not_or]

/-- Settles O3: a row spells a word exactly when the word is that of the row's command, and such a word decodes to the command. -/
theorem decodingIsTheOpcodeMap : Obligations.DecodingIsTheOpcodeMap :=
  ⟨fun _ _ => decode_eq_ok_iff_row, fun _ => decode_error_iff_no_row, fun _ _ _ => row_unique⟩

end Sys2Proof
end

section
/-! ### The features that make a word illegal (R94) -/
namespace Sys2Proof.Machine

theorem decodePlain_error_iff {i : Instr} {ia b a : Nat} :
    (∃ e, decodePlain i ia b a = .error e) ↔ ia ≠ 0 ∨ b ≠ 0 ∨ a ≠ 0 := by
  unfold decodePlain
  split_ifs <;> simp_all

theorem decodeOne_error_iff {i : Nat → Instr} {ia b a : Nat} : (∃ e, decodeOne i ia b a = .error e) ↔ ia ≠ 0 ∨ b ≠ 0 := by
  unfold decodeOne
  split_ifs <;> simp_all

theorem decodeTransform_error_iff {ia b a : Nat} : (∃ e, decodeTransform ia b a = .error e) ↔ ia ≠ 0 ∧ b ≠ 0 := by
  unfold decodeTransform
  split_ifs <;> simp_all

/-- The fields that make a word illegal (R94). -/
theorem decodeWord_error_iff {w : CmdWord} : (∃ e, decodeWord w = .error e) ↔
    6 ≤ opField w ∨ rsvField w ≠ 0 ∨ (iaField w ≠ 0 ∧ opField w ≠ 2) ∨ (iaField w ≠ 0 ∧ opField w = 2 ∧ bField w ≠ 0) ∨
      (bField w ≠ 0 ∧ (opField w = 0 ∨ opField w = 1 ∨ opField w = 3 ∨ opField w = 4 ∨ opField w = 5)) ∨
      (aField w ≠ 0 ∧ (opField w = 0 ∨ opField w = 5)) := by
  rw [decodeWord]
  split
  case isTrue hr => simp [hr]
  case isFalse hr =>
    split
    case h_1 hop | h_6 hop => simp [hop, hr, decodePlain_error_iff]
    case h_2 hop | h_4 hop | h_5 hop => simp [hop, hr, decodeOne_error_iff]
    case h_3 hop => simp [hop, hr, decodeTransform_error_iff]
    case h_7 => simp [show 6 ≤ opField w by grind]

/-- A word has one of the features R94 lists exactly when it decodes to no command. -/
theorem reservedWord_iff {d : Cell} : ReservedWord d ↔ ∃ e, decode d = .error e := by
  have hia : (d.extractLsb' 27 1).toNat = 1 ↔ (d.extractLsb' 27 1).toNat ≠ 0 := by
    have := (d.extractLsb' 27 1).isLt
    omega
  rw [decode_error_iff, decodeWord_error_iff, aField_lowWord, bField_lowWord, iaField_lowWord, opField_lowWord, rsvField_lowWord,
    ← hia]
  simp only [ReservedWord, BitVec.le_def, ← BitVec.toNat_inj, ne_eq]
  rfl

theorem decode_eq_nop_iff {d : Cell} : decode d = .ok .nop ↔ d = 0#64 :=
  ⟨fun h => (cmdData_of_decode h).symm, fun h => h ▸ rfl⟩

theorem hostWrite_illegal {d : Cell} {s : State} (hs : s.err = false) (h : ∃ e, decode d = .error e) :
    hostWrite cmdAddr d s = .next (faulted 5#4 d s, .err) := by
  rw [hostWrite_cmdAddr]
  exact cmdWrite_next.2 (.inr (.inl ⟨hs, h, rfl⟩))

/-- Settles O4: a word that no row spells does not decode, so its write is fault entry; the features are the decoder's reasons. -/
theorem illegalWordsRaiseIllCmd : Obligations.IllegalWordsRaiseIllCmd :=
  ⟨fun _ _ hs h => hostWrite_illegal hs (decode_error_iff_no_row.2 h), fun _ => reservedWord_iff.trans decode_error_iff_no_row,
    fun _ => decode_eq_nop_iff⟩

end Sys2Proof.Machine
end

section
/-! ### The words R97 prints -/
namespace Sys2Proof

/-- Settles O5: the decoder evaluates to the printed command, or to the feature that makes the word illegal. -/
theorem exampleWordsDecodeAsPrinted : Obligations.ExampleWordsDecodeAsPrinted := by
  refine ⟨rfl, rfl, rfl, rfl, rfl, rfl, rfl, rfl, rfl, ?_⟩
  simp only [List.forall_mem_cons, List.not_mem_nil, false_implies, implies_true, and_true]
  exact ⟨⟨.reservedOp, rfl⟩, ⟨.reservedBits, rfl⟩, ⟨.strayIa, rfl⟩, ⟨.strayB, rfl⟩, ⟨.strayA, rfl⟩, ⟨.strayB, rfl⟩⟩

end Sys2Proof
end

section
/-! ### The write of a command that its own check refuses (R221, R275) -/
namespace Sys2Proof.Machine

/-- A command whose meaning is the raising of a fault raises it when its word is written. -/
theorem raises_of_exec_eq_raiseFault {c : FaultCode} {i : Instr} {s : State} (h : exec i s = raiseFault c i s) :
    Raises (faultCode c) i s := fun d hd hs => by
  rw [hostWrite_cmdAddr, cmdWrite_next]
  refine .inr (.inr ⟨hs, i, _, hd, h, ?_⟩)
  rw [cmdData_of_decode hd]
  rfl

end Sys2Proof.Machine
end

section
/-! ### `WIN`: its word, its fault, and the cells it writes (R123) -/
namespace Sys2Proof.Machine

theorem cmdData_win {len : Nat} (h : len < 4096) : cmdData (.win len) = 0x10000000#64 ||| BitVec.ofNat 64 len := by
  have hor : 2 ^ 28 ||| len = 2 ^ 28 + len := (Nat.two_pow_add_eq_or_of_lt (i := 28) (h.trans (by decide)) 1).symm
  apply BitVec.eq_of_toNat_eq
  rw [cmdData, encode, BitVec.toNat_setWidth, toNat_packWord (by decide) (by decide) (by decide) h, BitVec.toNat_or,
    BitVec.toNat_ofNat, BitVec.toNat_ofNat, Nat.mod_eq_of_lt (b := 2 ^ 64) (h.trans (by decide))]
  exact (Nat.mod_eq_of_lt (by omega)).trans hor.symm

theorem exec_win_of_ne {len : Nat} (h : len ≠ 2048) (s : State) : exec (.win len) s = raiseFault .eFrameLen (.win len) s :=
  if_neg (mt (legalFrame_iff len).1 h)

theorem exec_win_nMax (s : State) : exec (.win 2048) s = .next s.winBody := rfl

theorem winSample_f64 (x : Sample) (c : Bits64) :
    winSample Num.f64 x c = if x.nn = true then F64.ofInt 0 else F64.mul (F64.ofInt x.v.toInt) c := rfl

/-- The cells of `XR` after `WIN 2048`. -/
theorem look_winBody_xr (s : State) (i : Nat) :
    s.winBody.xr.look i = if i < 2048 then some (winSample Num.f64 (s.rdSmp i) (wrom i)) else s.xr.look i := by
  rw [State.winBody_xr, Cells.look_fill]
  rfl

/-- Settles O14: the word is the encoder's, another length is the command's own fault, and the window fills the first 2048 cells of `XR`. -/
theorem winWindowsTheFrame : Obligations.WinWindowsTheFrame := by
  refine ⟨fun len h => ?_, fun len s h => raises_of_exec_eq_raiseFault (exec_win_of_ne h s), fun s => ⟨_, exec_win_nMax s, ?_⟩⟩
  · rw [← cmdData_win h]
    exact decodeAfterEncodeIsTheCommand _ (fitsField_iff.2 h)
  · refine ⟨fun i hi => ?_, fun i hi => ?_, s.winBody_xi, s.winBody_mag, s.winBody_pix, s.winBody_mlen,
      ⟨s.winBody_twlen, s.winBody_twc, s.winBody_tws⟩, ⟨s.winBody_smp, s.winBody_port, s.winBody_resps, s.winBody_draw⟩,
      ⟨s.winBody_err, s.winBody_errCode, s.winBody_errInfo⟩⟩
    · rw [look_winBody_xr, if_pos hi, winSample_f64]
    · rw [look_winBody_xr, if_neg hi.not_gt]

end Sys2Proof.Machine
end

section
/-! ### The window in exact real numbers (R120, R122) -/
namespace Sys2Proof.Machine

theorem winCoef_real (i : Nat) : winCoef Num.real i = 1 - Real.cos (2 * Real.pi * i / 2048) := by
  simp [winCoef, Num.real, Config.nMax]

/-- The angle of the mirrored index is the angle taken from a whole turn. -/
theorem winCoef_real_mirror {i : Nat} (hi : i ≤ 2048) : winCoef Num.real (2048 - i) = winCoef Num.real i := by
  have hθ : 2 * Real.pi * ((2048 - i : Nat) : ℝ) / 2048 = 2 * Real.pi - 2 * Real.pi * i / 2048 := by
    rw [Nat.cast_sub hi]
    push_cast
    ring
  rw [winCoef_real, winCoef_real, hθ, Real.cos_two_pi_sub]

/-- The coefficient is 2 where the angle is half a turn, which is at one index of a turn only. -/
theorem winCoef_real_eq_two_iff {i : Nat} (hi : i < 2048) : winCoef Num.real i = 2 ↔ i = 1024 := by
  have hcos : winCoef Num.real i = 2 ↔ Real.cos (2 * Real.pi * i / 2048) = -1 := by
    rw [winCoef_real]
    constructor <;> intro h <;> linarith
  rw [hcos]
  constructor
  · intro h
    obtain ⟨k, hk⟩ := Real.cos_eq_neg_one_iff.1 h
    have hreal : (i : ℝ) = 1024 + 2048 * k :=
      mul_left_cancel₀ Real.pi_ne_zero (by linarith)
    have hint : (i : Int) = 1024 + 2048 * k := by exact_mod_cast hreal
    omega
  · rintro rfl
    rw [show 2 * Real.pi * ((1024 : Nat) : ℝ) / 2048 = Real.pi by push_cast; ring, Real.cos_pi]

theorem winCoef_real_quarter : winCoef Num.real 512 = 1 := by
  rw [winCoef_real, show 2 * Real.pi * ((512 : Nat) : ℝ) / 2048 = Real.pi / 2 by push_cast; ring, Real.cos_pi_div_two, sub_zero]

/-- Settles O16: the shape of the cosine over one turn, by its values, its symmetry and where it is -1. -/
theorem windowShapeInTheReals : Obligations.WindowShapeInTheReals := by
  refine ⟨winCoef_real, ?_, fun i _ hi => (winCoef_real_mirror hi.le).symm, fun i hi => ⟨?_, ?_, winCoef_real_eq_two_iff hi⟩,
    winCoef_real_quarter, (winCoef_real_mirror (i := 512) (by decide)).trans winCoef_real_quarter⟩
  · simp [winCoef_real]
  · rw [winCoef_real]
    exact sub_nonneg.2 (Real.cos_le_one _)
  · rw [winCoef_real]
    linarith [Real.neg_one_le_cos (2 * Real.pi * i / 2048)]

end Sys2Proof.Machine
end

section
/-! ### A bound that is a number is kept by rounding, in absolute value (R8) -/
namespace Sys2Proof.Machine

variable {r : ℝ} {v w : Bits64}

/-- A rounding is no larger in magnitude than a number the real result is no larger than: both that number and its negation bound it. -/
theorem RoundsTo.mag_le (h : RoundsTo r v) (hr : |r| ≤ 2 ^ 64) (hw : F64.isFinite w = true) (hle : |r| ≤ |realOf w|) :
    F64.mag v ≤ F64.mag w := by
  have hlt := lt_overflow_of_le hr
  have hbound : ∀ u, F64.isFinite u = true → |r| ≤ realOf u → |realOf v| ≤ realOf u := fun u hu hru => by
    have hneg : F64.isFinite (F64.negate u) = true := (F64.isFinite_negate u).trans hu
    have hlow := h.le_realOf hlt hneg (by rw [realOf_negate]; exact (abs_le.1 hru).1)
    rw [realOf_negate] at hlow
    exact abs_le.2 ⟨hlow, h.realOf_le hlt hu (abs_le.1 hru).2⟩
  rw [← abs_realOf_le_abs_realOf_iff]
  obtain habs | habs := abs_choice (realOf w)
  · rw [habs] at hle ⊢
    exact hbound w hw hle
  · rw [habs, ← realOf_negate] at hle ⊢
    exact hbound _ ((F64.isFinite_negate w).trans hw) hle

theorem RoundsTo.isZero (h : RoundsTo 0 v) : F64.isZero v = true :=
  F64.isZero_iff.2 (Nat.le_zero.1 (h.mag_le (w := F64.zero) (by simp) (by decide) (by simp)))

theorem neg_ofInt (k : Int) : F64.neg (F64.ofInt k) = decide (k < 0) := neg_round _ _ _

theorem ofInt_zero : F64.ofInt 0 = F64.zero := by decide +kernel

theorem realOf_ofInt_two_pow_31 : realOf (F64.ofInt (2 ^ 31)) = 2 ^ 31 :=
  (realOf_of_gridInt (k := 2 ^ 31) (by decide +kernel)).trans (by norm_num)

theorem realOf_ofInt_two_pow_32 : realOf (F64.ofInt (2 ^ 32)) = 2 ^ 32 :=
  (realOf_of_gridInt (k := 2 ^ 32) (by decide +kernel)).trans (by norm_num)

/-- A 32-bit integer as a number: finite, and within 2^31. -/
theorem ofInt_toInt_bounds (x : BitVec 32) : F64.isFinite (F64.ofInt x.toInt) = true ∧ |realOf (F64.ofInt x.toInt)| ≤ 2 ^ 31 := by
  have hint : |x.toInt| ≤ 2 ^ 31 := abs_le.2 ⟨by have := x.le_toInt; omega, by have := x.toInt_lt; omega⟩
  have hreal : |(x.toInt : ℝ)| ≤ 2 ^ 31 := by exact_mod_cast hint
  have habs : |realOf (F64.ofInt (2 ^ 31))| = 2 ^ 31 := by rw [realOf_ofInt_two_pow_31, abs_of_pos (by positivity)]
  have hr : |(x.toInt : ℝ)| ≤ 2 ^ 64 := hreal.trans (by norm_num)
  have hround := roundsTo_ofInt x.toInt
  refine ⟨(hround.abs_realOf_le hr).1, habs ▸ abs_realOf_le_abs_realOf_iff.2 ?_⟩
  exact hround.mag_le hr (by decide +kernel) (habs ▸ hreal)

end Sys2Proof.Machine
end

section
/-! ### The corner cases of `WIN` (R124) -/
namespace Sys2Proof.Machine

variable {i : Nat}

theorem abs_realOf_wrom_le (hi : i < 2048) : |realOf (wrom i)| ≤ 2 := by
  obtain ⟨hfin, hlow, hhigh⟩ := wrom_range hi
  have hnan : F64.isNaN (F64.ofInt 0) = false ∧ F64.isNaN (F64.ofInt 2) = false := by decide +kernel
  have hw := F64.isNaN_of_isFinite hfin
  rw [F64.ge_iff_key_le hw hnan.1, ← realOf_le_realOf_iff, realOf_ofInt_zero] at hlow
  rw [F64.ge_iff_key_le hnan.2 hw, ← realOf_le_realOf_iff, realOf_ofInt_two] at hhigh
  exact abs_le.2 ⟨by linarith, hhigh⟩

section Product
variable (x : BitVec 32) (hi : i < 2048)
include hi

/-- The product of a sample and its coefficient is within 2^31 · 2 (R124 (c), (d)). -/
theorem mul_wrom_bounds : F64.isFinite (F64.mul (F64.ofInt x.toInt) (wrom i)) = true ∧
    F64.mag (F64.mul (F64.ofInt x.toInt) (wrom i)) ≤ F64.mag (F64.ofInt (2 ^ 32)) := by
  obtain ⟨hfin, habs⟩ := ofInt_toInt_bounds x
  have hround := roundsTo_mul hfin (wrom_range hi).1
  have hprod : |realOf (F64.ofInt x.toInt) * realOf (wrom i)| ≤ 2 ^ 32 := by
    calc |realOf (F64.ofInt x.toInt) * realOf (wrom i)|
        = |realOf (F64.ofInt x.toInt)| * |realOf (wrom i)| := abs_mul _ _
      _ ≤ 2 ^ 31 * 2 := mul_le_mul habs (abs_realOf_wrom_le hi) (abs_nonneg _) (by norm_num)
      _ = 2 ^ 32 := by norm_num
  have hr := hprod.trans (show (2 : ℝ) ^ 32 ≤ 2 ^ 64 by norm_num)
  refine ⟨(hround.abs_realOf_le hr).1, hround.mag_le hr (by decide +kernel) ?_⟩
  rwa [realOf_ofInt_two_pow_32, abs_of_pos (a := (2 : ℝ) ^ 32) (by positivity)]

theorem isZero_mul_wrom (h : realOf (F64.ofInt x.toInt) * realOf (wrom i) = 0) :
    F64.isZero (F64.mul (F64.ofInt x.toInt) (wrom i)) = true :=
  (h ▸ roundsTo_mul (ofInt_toInt_bounds x).1 (wrom_range hi).1).isZero

end Product

/-- The first coefficient is +0, so the first product has the sign of the sample (R124 (a)). -/
theorem neg_mul_wrom_zero (x : BitVec 32) : F64.neg (F64.mul (F64.ofInt x.toInt) (wrom 0)) = x.msb := by
  rw [neg_mul_of_isFinite (ofInt_toInt_bounds x).1 (wrom_range (by decide)).1, neg_ofInt, wrom_zero, BitVec.msb_eq_toInt]
  exact Bool.xor_false _

theorem State.setXr_xr_self (s : State) : s.setXr s.xr = s := rfl

@[simp] theorem State.winBody_rdSmp (s : State) (i : Nat) : s.winBody.rdSmp i = s.rdSmp i := by simp [State.rdSmp]

/-- `WIN` reads only `SMP` and `WROM`, so a second one fills the same cells with the same products (R124 (f)). -/
theorem winBody_winBody (s : State) : s.winBody.winBody = s.winBody := by
  have hxr : s.winBody.xr.fill Config.nMax (fun i => winSample Num.f64 (s.winBody.rdSmp i) (wrom i)) = s.winBody.xr := by
    simp [Cells.fill_fill]
  rw [State.winBody, hxr]
  exact State.setXr_xr_self _

/-- Settles O17: a tagged entry is +0 at once; the others are products of a bounded sample and a coefficient in [0, 2], a product with a
zero factor being a zero. -/
theorem winCornerCases : Obligations.WinCornerCases := by
  intro s
  refine ⟨s.winBody, exec_win_nMax s, (exec_win_nMax _).trans (congrArg _ (winBody_winBody s)), fun i hi =>
    ⟨_, (look_winBody_xr s i).trans (if_pos hi), ?_⟩⟩
  rw [winSample_f64]
  cases (s.rdSmp i).nn with
  | true =>
    rw [if_pos rfl, ofInt_zero]
    exact ⟨by decide, Nat.zero_le _, fun _ => rfl, fun _ => by decide, fun _ => ⟨by decide, nofun⟩⟩
  | false =>
    rw [if_neg Bool.false_ne_true]
    obtain ⟨hfin, hmag⟩ := mul_wrom_bounds (s.rdSmp i).v hi
    refine ⟨hfin, hmag, nofun, fun hv => isZero_mul_wrom _ hi ?_, ?_⟩
    · rw [hv, BitVec.toInt_zero, realOf_ofInt_zero, zero_mul]
    · rintro rfl
      refine ⟨isZero_mul_wrom _ hi ?_, fun _ => neg_mul_wrom_zero _⟩
      rw [wrom_zero, realOf_of_isZero (v := F64.zero) (by decide), mul_zero]

end Sys2Proof.Machine
end

section
/-! ### The words of the transform commands, and their length check (R90, R141, R144) -/
namespace Sys2Proof.Machine

/-- A command word as write data: the fields stand side by side, so the sum of their places is their disjunction (R90). -/
theorem setWidth_packWord {op ia b a : Nat} (ho : op < 16) (hi : ia < 2) (hb : b < 4096) (ha : a < 4096) :
    (packWord op ia b a).setWidth 64 =
      BitVec.ofNat 64 (op * 2 ^ 28 + ia * 2 ^ 27) ||| BitVec.ofNat 64 b <<< 12 ||| BitVec.ofNat 64 a := by
  have hlow : 2 ^ 12 * (op * 2 ^ 16 + ia * 2 ^ 15 + b) + a = 2 ^ 12 * (op * 2 ^ 16 + ia * 2 ^ 15 + b) ||| a :=
    Nat.two_pow_add_eq_or_of_lt ha _
  have hhigh : 2 ^ 24 * (op * 2 ^ 4 + ia * 2 ^ 3) + b * 2 ^ 12 = 2 ^ 24 * (op * 2 ^ 4 + ia * 2 ^ 3) ||| b * 2 ^ 12 :=
    Nat.two_pow_add_eq_or_of_lt (by omega) _
  apply BitVec.eq_of_toNat_eq
  rw [BitVec.toNat_setWidth, toNat_packWord ho hi hb ha, BitVec.toNat_or, BitVec.toNat_or, BitVec.toNat_shiftLeft,
    BitVec.toNat_ofNat, BitVec.toNat_ofNat, BitVec.toNat_ofNat, Nat.shiftLeft_eq, Nat.mod_eq_of_lt (by omega),
    Nat.mod_eq_of_lt (by omega), Nat.mod_eq_of_lt (a := b) (by omega), Nat.mod_eq_of_lt (by omega), Nat.mod_eq_of_lt (by omega)]
  rw [show op * 2 ^ 28 + ia * 2 ^ 27 = 2 ^ 24 * (op * 2 ^ 4 + ia * 2 ^ 3) by ring, ← hhigh,
    show 2 ^ 24 * (op * 2 ^ 4 + ia * 2 ^ 3) + b * 2 ^ 12 = 2 ^ 12 * (op * 2 ^ 16 + ia * 2 ^ 15 + b) by ring, ← hlow]

theorem cmdData_fft {nr ni : Nat} (hr : nr < 4096) (hi : ni < 4096) :
    cmdData (.fft nr ni) = 0x20000000#64 ||| BitVec.ofNat 64 ni <<< 12 ||| BitVec.ofNat 64 nr :=
  setWidth_packWord (op := 2) (ia := 0) (by decide) (by decide) hi hr

theorem cmdData_fftr {n : Nat} (h : n < 4096) : cmdData (.fftr n) = 0x28000000#64 ||| BitVec.ofNat 64 n :=
  setWidth_packWord (op := 2) (ia := 1) (b := 0) (by decide) (by decide) (by decide) h

theorem cmdData_mag {n : Nat} (h : n < 4096) : cmdData (.mag n) = 0x30000000#64 ||| BitVec.ofNat 64 n :=
  setWidth_packWord (op := 3) (ia := 0) (b := 0) (by decide) (by decide) (by decide) h

variable {n : Nat}

theorem exec_fft_of_legal (h : n ∈ legalLengths) (s : State) : exec (.fft n n) s = .next (s.fftBody n) :=
  execFft_next.2 (.inl ⟨legalLen_iff_mem.2 h, rfl, rfl⟩)

theorem exec_fftr_of_legal (h : n ∈ legalLengths) (s : State) : exec (.fftr n) s = .next (s.fftrBody n) :=
  execFftr_next.2 (.inl ⟨legalLen_iff_mem.2 h, rfl⟩)

theorem exec_mag_of_legal (h : n ∈ legalLengths) (s : State) : exec (.mag n) s = .next (s.magBody n) :=
  execMag_next.2 (.inl ⟨legalLen_iff_mem.2 h, rfl⟩)

/-- The length is checked before the match (R144, R274). -/
theorem fft_raises_eLen (h : n ∉ legalLengths) (ni : Nat) (s : State) : Raises 1#4 (.fft n ni) s :=
  raises_of_exec_eq_raiseFault (c := .eLen) (if_neg (mt legalLen_iff_mem.1 h))

theorem fft_raises_eMismatch {ni : Nat} (h : n ∈ legalLengths) (hne : ni ≠ n) (s : State) : Raises 2#4 (.fft n ni) s :=
  raises_of_exec_eq_raiseFault (c := .eMismatch) ((if_pos (legalLen_iff_mem.2 h)).trans (if_neg hne))

theorem fftr_raises_eLen (h : n ∉ legalLengths) (s : State) : Raises 1#4 (.fftr n) s :=
  raises_of_exec_eq_raiseFault (c := .eLen) (if_neg (mt legalLen_iff_mem.1 h))

theorem mag_raises_eLen (h : n ∉ legalLengths) (s : State) : Raises 1#4 (.mag n) s :=
  raises_of_exec_eq_raiseFault (c := .eLen) (if_neg (mt legalLen_iff_mem.1 h))

theorem exists_pow_of_legal (h : n ∈ legalLengths) : ∃ k, k ≤ 11 ∧ n = 2 ^ k :=
  legalLen_iff_exists_pow.1 (legalLen_iff_mem.2 h)

end Sys2Proof.Machine
end

section
/-! ### The twiddle cache (R142) -/
namespace Sys2Proof.Machine

variable {n : Nat} {s t u : State}

@[simp] theorem State.cachePrepare_rdXr (n i : Nat) (s : State) : (s.cachePrepare n).rdXr i = s.rdXr i := by simp [State.rdXr]

@[simp] theorem State.cachePrepare_rdXi (n i : Nat) (s : State) : (s.cachePrepare n).rdXi i = s.rdXi i := by simp [State.rdXi]

theorem State.cachePrepare_eq_setTables (h : 2 ≤ n) (hne : s.twlen ≠ n) : s.cachePrepare n =
    s.setTables n (s.twc.fill (n / 2) fun k => twCos Num.f64 k n) (s.tws.fill (n / 2) fun k => twSin Num.f64 k n) :=
  if_pos ⟨h, hne⟩

theorem State.cachePrepare_eq_self (h : n < 2 ∨ s.twlen = n) : s.cachePrepare n = s :=
  if_neg fun hc => h.elim hc.1.not_gt hc.2

theorem cacheAfter_cachePrepare (n : Nat) (s : State) : CacheAfter n s (s.cachePrepare n) where
  rebuilt h hne := by
    rw [State.cachePrepare_eq_setTables h hne]
    simp
  reused h := by
    rw [State.cachePrepare_eq_self h]
    exact ⟨rfl, rfl, rfl⟩

/-- What `CacheAfter` says depends on the caches only. -/
theorem CacheAfter.of_sameCache {s' t' : State} (h : CacheAfter n s t) (hs : SameCache s' s) (ht : SameCache t t') :
    CacheAfter n s' t' where
  rebuilt := by
    rw [ht.twlen, ht.twc, ht.tws, ← hs.twlen, ← hs.twc, ← hs.tws]
    exact h.rebuilt
  reused := by
    rw [ht.twlen, ht.twc, ht.tws, ← hs.twlen, ← hs.twc, ← hs.tws]
    exact h.reused

theorem cacheAfter_fftBody (n : Nat) (s : State) : CacheAfter n s (s.fftBody n) :=
  (cacheAfter_cachePrepare n s).of_sameCache ⟨rfl, rfl, rfl⟩ ⟨s.fftBody_twlen n, s.fftBody_twc n, s.fftBody_tws n⟩

theorem cacheAfter_fftrBody (n : Nat) (s : State) : CacheAfter n s (s.fftrBody n) :=
  (cacheAfter_cachePrepare n s).of_sameCache ⟨rfl, rfl, rfl⟩ ⟨s.fftrBody_twlen n, s.fftrBody_twc n, s.fftrBody_tws n⟩

theorem cacheAfter_magBody (n : Nat) (s : State) : CacheAfter n s (s.magBody n) :=
  (cacheAfter_cachePrepare n s).of_sameCache ⟨rfl, rfl, rfl⟩ ⟨s.magBody_twlen n, s.magBody_twc n, s.magBody_tws n⟩

/-- Before its transform and after it `FRAME` leaves the cache alone. -/
theorem cacheAfter_frameBody (s : State) : CacheAfter 2048 s s.frameBody :=
  (cacheAfter_magBody 2048 s.winBody).of_sameCache ⟨s.winBody_twlen, s.winBody_twc, s.winBody_tws⟩
    ⟨State.scaleBody_twlen _ _, State.scaleBody_twc _ _, State.scaleBody_tws _ _⟩

theorem sameCache_of_faulted {i : Instr} (hs : s.err = false) (h : exec i s = .next t) (ht : t.err = true) : SameCache s t := by
  obtain hr | ⟨c, rfl⟩ := exec_record h
  · rw [hr.err, hs] at ht
    exact absurd ht Bool.false_ne_true
  · exact ⟨rfl, rfl, rfl⟩

theorem sameCache_of_win {len : Nat} (h : exec (.win len) s = .next t) : SameCache s t := by
  obtain ⟨-, rfl⟩ | ⟨-, rfl⟩ := execWin_next.1 h
  · exact ⟨s.winBody_twlen, s.winBody_twc, s.winBody_tws⟩
  · exact ⟨rfl, rfl, rfl⟩

theorem sameCache_of_scale {k : Nat} (h : exec (.scale k) s = .next t) : SameCache s t := by
  obtain ⟨-, rfl⟩ | ⟨-, rfl⟩ := execScale_next.1 h
  · exact ⟨s.scaleBody_twlen k, s.scaleBody_twc k, s.scaleBody_tws k⟩
  · exact ⟨rfl, rfl, rfl⟩

/-- Settles O19: the bodies look the cache up once, before the transform, and nothing after it touches the cache. -/
theorem twiddleCacheRule : Obligations.TwiddleCacheRule := by
  refine ⟨fun n s hn => ⟨⟨_, exec_fft_of_legal hn s, cacheAfter_fftBody n s⟩, ⟨_, exec_fftr_of_legal hn s, cacheAfter_fftrBody n s⟩,
    ⟨_, exec_mag_of_legal hn s, cacheAfter_magBody n s⟩⟩, fun s => ⟨_, rfl, cacheAfter_frameBody s⟩,
    fun i s t => sameCache_of_faulted, fun s => ⟨⟨s, rfl, rfl, rfl, rfl⟩, fun len => ?_, fun k => ?_⟩⟩
  · obtain ⟨t, ht⟩ := exec_total (.win len) s
    exact ⟨t, ht, sameCache_of_win ht⟩
  · obtain ⟨t, ht⟩ := exec_total (.scale k) s
    exact ⟨t, ht, sameCache_of_scale ht⟩

end Sys2Proof.Machine
end

section
/-! ### The recursion, output by output (R145) -/
namespace Sys2Proof.Machine

variable {α T : Type}

theorem getElem?_evens (x : List α) (i : Nat) : (evens x)[i]? = x[2 * i]? := by
  induction x using evens.induct generalizing i with
  | case1 => simp [evens]
  | case2 a => cases i <;> simp [evens]
  | case3 a b x ih =>
    cases i with
    | zero => simp [evens]
    | succ i => simpa [evens, Nat.mul_succ] using ih i

theorem getElem?_odds (x : List α) (i : Nat) : (odds x)[i]? = x[2 * i + 1]? := by
  induction x using odds.induct generalizing i with
  | case1 => simp [odds]
  | case2 a => simp [odds]
  | case3 a b x ih =>
    cases i with
    | zero => simp [odds]
    | succ i => simpa [odds, Nat.mul_succ] using ih i

theorem length_evens (x : List α) : (evens x).length = (x.length + 1) / 2 := by
  induction x using evens.induct with
  | case1 => simp [evens]
  | case2 a => simp [evens]
  | case3 a b x ih =>
    rw [evens, List.length_cons, ih, List.length_cons, List.length_cons]
    omega

theorem length_odds (x : List α) : (odds x).length = x.length / 2 := by
  induction x using odds.induct with
  | case1 => simp [odds]
  | case2 a => simp [odds]
  | case3 a b x ih =>
    rw [odds, List.length_cons, ih, List.length_cons, List.length_cons]
    omega

section Butterfly
variable (o : Num T) (tw : Nat → Cx T) (n : Nat) {d : Nat} {x : List (Cx T)}

/-- The two halves of a sequence of length `2^(d+1)` have length `2^d`. -/
theorem length_halves (h : x.length = 2 ^ (d + 1)) : (evens x).length = 2 ^ d ∧ (odds x).length = 2 ^ d := by
  rw [length_evens, length_odds, h, pow_succ]
  omega

theorem length_fftRec (h : x.length = 2 ^ d) : (fftRec o tw n d x).length = 2 ^ d := by
  induction d generalizing x with
  | zero => exact h
  | succ d ih =>
    obtain ⟨he, ho⟩ := length_halves h
    simp only [fftRec, List.length_append, List.length_zipWith, List.length_mapIdx, ih he, ih ho, Nat.min_self]
    rw [pow_succ, Nat.mul_two]

/-- Butterfly `i`: its two inputs and its two outputs. -/
theorem fftRec_butterfly (h : x.length = 2 ^ (d + 1)) {i : Nat} (hi : i < 2 ^ d) : ∃ e q,
    (fftRec o tw n d (evens x))[i]? = some e ∧ (fftRec o tw n d (odds x))[i]? = some q ∧
      (fftRec o tw n (d + 1) x)[i]? = some (cxAdd o e (cxMul o (tw (i * (n / 2 ^ (d + 1)))) q)) ∧
      (fftRec o tw n (d + 1) x)[i + 2 ^ d]? = some (cxSub o e (cxMul o (tw (i * (n / 2 ^ (d + 1)))) q)) := by
  obtain ⟨he, ho⟩ := length_halves h
  have hE := length_fftRec o tw n he
  have hQ := length_fftRec o tw n ho
  refine ⟨_, _, List.getElem?_eq_getElem (hE ▸ hi), List.getElem?_eq_getElem (hQ ▸ hi), ?_, ?_⟩
  · rw [fftRec, List.getElem?_append_left (by simp [hE, hQ, hi])]
    simp [hE, hQ, hi]
  · rw [fftRec, List.getElem?_append_right (by simp [hE, hQ])]
    simp [hE, hQ, hi]

/-- Every output is one of a butterfly's two. -/
theorem exists_butterfly_of_getElem? (h : x.length = 2 ^ (d + 1)) {k : Nat} {y : Cx T}
    (hy : (fftRec o tw n (d + 1) x)[k]? = some y) : ∃ i e q, i < 2 ^ d ∧
      (fftRec o tw n d (evens x))[i]? = some e ∧ (fftRec o tw n d (odds x))[i]? = some q ∧
      ((k = i ∧ y = cxAdd o e (cxMul o (tw (i * (n / 2 ^ (d + 1)))) q)) ∨
        (k = i + 2 ^ d ∧ y = cxSub o e (cxMul o (tw (i * (n / 2 ^ (d + 1)))) q))) := by
  obtain ⟨hk, -⟩ := List.getElem?_eq_some_iff.1 hy
  rw [length_fftRec o tw n h, pow_succ] at hk
  by_cases hlow : k < 2 ^ d
  · obtain ⟨e, q, he, hq, hadd, -⟩ := fftRec_butterfly o tw n h hlow
    exact ⟨k, e, q, hlow, he, hq, .inl ⟨rfl, Option.some.inj (hy.symm.trans hadd)⟩⟩
  · have hi : k - 2 ^ d < 2 ^ d := by omega
    have hk' : k - 2 ^ d + 2 ^ d = k := by omega
    obtain ⟨e, q, he, hq, -, hsub⟩ := fftRec_butterfly o tw n h hi
    rw [hk'] at hsub
    exact ⟨k - 2 ^ d, e, q, hi, he, hq, .inr ⟨hk'.symm, Option.some.inj (hy.symm.trans hsub)⟩⟩

end Butterfly

theorem filterMap_range_getElem? (x : List α) : (List.range x.length).filterMap (x[·]?) = x := by
  induction x with
  | nil => rfl
  | cons a x ih => simp [List.range_succ_eq_map, List.filterMap_map, ih]

theorem filterMap_even_index {x : List α} {n : Nat} (h : (evens x).length = n) :
    (List.range n).filterMap (fun m => x[2 * m]?) = evens x := by
  simp only [← getElem?_evens, ← h, filterMap_range_getElem?]

theorem filterMap_odd_index {x : List α} {n : Nat} (h : (odds x).length = n) :
    (List.range n).filterMap (fun m => x[2 * m + 1]?) = odds x := by
  simp only [← getElem?_odds, ← h, filterMap_range_getElem?]

/-- Settles O21: the two halves of the statement are those of the recursion, and its outputs are the butterflies'. -/
theorem butterflyRecursion : Obligations.ButterflyRecursion := by
  intro T o tw big d x _ hx
  obtain ⟨he, ho⟩ := length_halves hx
  refine ⟨fun _ => rfl, length_fftRec o tw _ hx, fun i hi => ?_⟩
  rw [filterMap_even_index he, filterMap_odd_index ho]
  obtain ⟨e, q, hE, hQ, hadd, hsub⟩ := fftRec_butterfly o tw (2 ^ big) hx hi
  exact ⟨e, q, hE, hQ, _, _, _, _, rfl, rfl, rfl, rfl, hadd, hsub⟩

end Sys2Proof.Machine
end

section
/-! ### What a transform leaves: in its cells, and as it was (R144, R145, R149; U15) -/
namespace Sys2Proof.Machine

variable {n : Nat} {s t : State}

theorem isNaN_anyNaN (draw : Nat) (b : Buf) (i : Nat) : F64.isNaN (anyNaN draw b i) = true := by
  unfold anyNaN
  split
  case isTrue h => exact h
  case isFalse => exact F64.isNaN_qNaN

theorem settled_settleNan (s : State) (b : Buf) (i : Nat) (v : Bits64) : Settled (s.settleNan b i v) v := by
  unfold Settled State.settleNan
  split
  case isTrue => exact isNaN_anyNaN _ _ _
  case isFalse => rfl

theorem settled_self (v : Bits64) : Settled v v := by
  unfold Settled
  split
  case isTrue h => exact h
  case isFalse => rfl

/-- A transform of length 1 copies, a longer one stores the results of operations. -/
theorem settled_outCell (n : Nat) (b : Buf) (i : Nat) (v : Bits64) (s : State) :
    Settled (s.outCell n b i v) v ∧ (n = 1 → s.outCell n b i v = v) := by
  unfold State.outCell
  split
  case isTrue => exact ⟨settled_self v, fun _ => rfl⟩
  case isFalse h => exact ⟨settled_settleNan s b i v, by omega⟩

theorem transformStored_storeTransform {y : List (Cx Bits64)} (hy : y.length = n) (hr : t.xr = s.xr) (hi : t.xi = s.xi) :
    TransformStored n y s (t.storeTransform n y) where
  values i h := by
    have hyi : y[i]? = some y[i] := List.getElem?_eq_getElem (hy ▸ h)
    obtain ⟨hv, hv1⟩ := settled_outCell n .xr i y[i].re t
    obtain ⟨hw, hw1⟩ := settled_outCell n .xi i y[i].im t
    exact ⟨y[i], _, _, hyi, by simp [h, hyi], by simp [h, hyi], hv, hw, fun h1 => ⟨hv1 h1, hw1 h1⟩⟩
  rest i h := by simp [h.not_gt, hr, hi]

/-- The table a state holds is read through its two arrays and the draw counter. -/
theorem State.twiddle_congr (hc : t.twc = s.twc) (hs : t.tws = s.tws) (hd : t.draw = s.draw) : t.twiddle = s.twiddle := by
  funext k
  simp only [State.twiddle, State.rdTwc, State.rdTws, hc, hs, hd]

theorem State.fftBody_twiddle (n : Nat) (s : State) : (s.fftBody n).twiddle = (s.cachePrepare n).twiddle :=
  State.twiddle_congr (s.fftBody_twc n) (s.fftBody_tws n) (by simp)

theorem State.fftrBody_twiddle (n : Nat) (s : State) : (s.fftrBody n).twiddle = (s.cachePrepare n).twiddle :=
  State.twiddle_congr (s.fftrBody_twc n) (s.fftrBody_tws n) (by simp)

theorem State.magBody_twiddle (n : Nat) (s : State) : (s.magBody n).twiddle = (s.fftrBody n).twiddle :=
  State.twiddle_congr (by simp) (by simp) (by simp)

theorem length_transform {x : List (Cx Bits64)} (hn : n ∈ legalLengths) (hx : x.length = n) (s : State) :
    (s.transform n x).length = n := by
  obtain ⟨d, -, rfl⟩ := exists_pow_of_legal hn
  rw [State.transform, Nat.log2_two_pow]
  exact length_fftRec _ _ _ hx

theorem transformStored_fftBody (hn : n ∈ legalLengths) (s : State) : TransformStored n
    (fftRec Num.f64 (s.fftBody n).twiddle n n.log2 ((List.range n).map fun i => ⟨s.rdXr i, s.rdXi i⟩)) s (s.fftBody n) := by
  have hin : (s.cachePrepare n).complexInput n = (List.range n).map fun i => ⟨s.rdXr i, s.rdXi i⟩ := by
    simp [State.complexInput]
  rw [State.fftBody_twiddle, ← hin]
  exact transformStored_storeTransform (length_transform hn (by simp [State.complexInput]) _) (by simp) (by simp)

theorem transformStored_fftrBody (hn : n ∈ legalLengths) (s : State) : TransformStored n
    (fftRec Num.f64 (s.fftrBody n).twiddle n n.log2 ((List.range n).map fun i => ⟨s.rdXr i, F64.zero⟩)) s (s.fftrBody n) := by
  have hin : (s.cachePrepare n).realInput n = (List.range n).map fun i => ⟨s.rdXr i, F64.zero⟩ := by
    simp [State.realInput, ofInt_zero]
  rw [State.fftrBody_twiddle, ← hin]
  exact transformStored_storeTransform (length_transform hn (by simp [State.realInput]) _) (by simp) (by simp)

@[simp] theorem State.magBody_xr (n : Nat) (s : State) : (s.magBody n).xr = (s.fftrBody n).xr := by simp [State.magBody]

@[simp] theorem State.magBody_xi (n : Nat) (s : State) : (s.magBody n).xi = (s.fftrBody n).xi := by simp [State.magBody]

/-- `MAG` leaves in `XR` and `XI` what `FFTR` leaves there. -/
theorem transformStored_magBody (hn : n ∈ legalLengths) (s : State) : TransformStored n
    (fftRec Num.f64 (s.magBody n).twiddle n n.log2 ((List.range n).map fun i => ⟨s.rdXr i, F64.zero⟩)) s (s.magBody n) := by
  rw [State.magBody_twiddle]
  obtain ⟨hv, hr⟩ := transformStored_fftrBody hn s
  exact ⟨by rwa [s.magBody_xr, s.magBody_xi], by rwa [s.magBody_xr, s.magBody_xi]⟩

/-- Settles O22: the word is the encoder's, the checks are the command's own faults in their order, and the body stores the transform
of what the cells held. -/
theorem fftTransformsInPlace : Obligations.FftTransformsInPlace := by
  refine ⟨fun nr ni hr hi => ?_, fun nr ni s => ⟨fun h => fft_raises_eLen h ni s, fun h hne => fft_raises_eMismatch h hne s⟩,
    fun n s hn => ⟨_, exec_fft_of_legal hn s, cacheAfter_fftBody n s, transformStored_fftBody hn s, s.fftBody_mag n,
      s.fftBody_pix n, s.fftBody_mlen n, ⟨s.fftBody_smp n, s.fftBody_port n, s.fftBody_resps n, s.fftBody_draw n⟩,
      ⟨s.fftBody_err n, s.fftBody_errCode n, s.fftBody_errInfo n⟩⟩⟩
  rw [← cmdData_fft hr hi]
  exact decodeAfterEncodeIsTheCommand _ (Bool.and_eq_true_iff.2 ⟨fitsField_iff.2 hr, fitsField_iff.2 hi⟩)

/-- Settles O23: as `FFT`, with the imaginary parts of the input +0. -/
theorem fftrTransformsInPlace : Obligations.FftrTransformsInPlace := by
  refine ⟨fun n h => ?_, fun n s h => fftr_raises_eLen h s,
    fun n s hn => ⟨_, exec_fftr_of_legal hn s, cacheAfter_fftrBody n s, transformStored_fftrBody hn s, s.fftrBody_mag n,
      s.fftrBody_pix n, s.fftrBody_mlen n, ⟨s.fftrBody_smp n, s.fftrBody_port n, s.fftrBody_resps n, s.fftrBody_draw n⟩,
      ⟨s.fftrBody_err n, s.fftrBody_errCode n, s.fftrBody_errInfo n⟩⟩⟩
  rw [← cmdData_fftr h]
  exact decodeAfterEncodeIsTheCommand _ (fitsField_iff.2 h)

/-- The magnitude of the cells `MAG` leaves in `XR` and `XI` (R150). -/
theorem look_magBody_mag (n i : Nat) (s : State) : (s.magBody n).mag.look i =
    if i < n then some ((s.fftrBody n).settleNan .mag i (magnitude Num.f64 ⟨(s.fftrBody n).rdXr i, (s.fftrBody n).rdXi i⟩))
    else s.mag.look i := by
  rw [State.magBody, State.storeMagnitudes_mag, Cells.look_fill, State.fftrBody_mag]

theorem magBody_magnitudes (hn : n ∈ legalLengths) (s : State) {i : Nat} (hi : i < n) : ∃ r im v,
    (s.magBody n).xr.look i = some r ∧ (s.magBody n).xi.look i = some im ∧ (s.magBody n).mag.look i = some v ∧
      Settled v (F64.sqrt (F64.add (F64.mul r r) (F64.mul im im))) := by
  obtain ⟨-, r, im, -, hr, him, -⟩ := (transformStored_fftrBody hn s).values i hi
  refine ⟨r, im, _, (congrArg (·.look i) (s.magBody_xr n)).trans hr, (congrArg (·.look i) (s.magBody_xi n)).trans him,
    (look_magBody_mag n i s).trans (if_pos hi), ?_⟩
  rw [State.rdXr, State.rdXi, hr, him]
  exact settled_settleNan _ _ _ _

/-- Settles O24: the transform of `FFTR`, then the magnitudes of what it left. -/
theorem magLeavesTheMagnitudes : Obligations.MagLeavesTheMagnitudes := by
  refine ⟨fun n h => ?_, fun n s h => mag_raises_eLen h s,
    fun n s hn => ⟨_, exec_mag_of_legal hn s, cacheAfter_magBody n s, transformStored_magBody hn s,
      fun i hi => magBody_magnitudes hn s hi, fun i hi => (look_magBody_mag n i s).trans (if_neg hi.not_gt), s.magBody_mlen n,
      s.magBody_pix n, ⟨s.magBody_smp n, s.magBody_port n, s.magBody_resps n, s.magBody_draw n⟩,
      ⟨s.magBody_err n, s.magBody_errCode n, s.magBody_errInfo n⟩⟩⟩
  rw [← cmdData_mag h]
  exact decodeAfterEncodeIsTheCommand _ (fitsField_iff.2 h)

/-- `FFT 1, 1` stores what it reads. -/
theorem fftBody_one (s : State) : (s.fftBody 1).xr.look 0 = some (s.rdXr 0) ∧ (s.fftBody 1).xi.look 0 = some (s.rdXi 0) := by
  obtain ⟨z, v, w, hz, hv, hw, -, -, h1⟩ := (transformStored_fftBody (by decide) s).values 0 Nat.one_pos
  obtain rfl : z = ⟨s.rdXr 0, s.rdXi 0⟩ := (Option.some.inj hz).symm
  obtain ⟨rfl, rfl⟩ := h1 rfl
  exact ⟨hv, hw⟩

/-- Settles O18: the check is membership in the list of the powers of two, and a transform of one cell has no butterfly. -/
theorem legalLengthsAreThePowersOfTwo : Obligations.LegalLengthsAreThePowersOfTwo := by
  refine ⟨fun n => legalLen_iff_mem, fun n => ?_, fun n => legalLen_iff_mem.symm.trans legalLen_iff_exists_pow,
    fun n ni s h => ⟨fft_raises_eLen h ni s, fftr_raises_eLen h s, mag_raises_eLen h s⟩,
    fun s => ⟨_, exec_fft_of_legal (by decide) s, fftBody_one s⟩⟩
  rw [← legalLen_iff_mem, legalLen, Bool.and_eq_true, Bool.and_eq_true, decide_eq_true_iff, decide_eq_true_iff, decide_eq_true_iff,
    and_assoc]
  rfl

end Sys2Proof.Machine
end

section
/-! ### `FFTR` is `FFT` on an imaginary part of zeros (R148) -/
namespace Sys2Proof.Machine

/-- Filling the first cells is putting them one by one, in rising order. -/
theorem Cells.put_fill {α : Type} (c : Cells α) (n : Nat) (f : Nat → α) : (c.fill n f).put n (f n) = c.fill (n + 1) f := by
  have hbelow : ((List.range n).map fun i => (i, f i)).filter (fun e => decide (e.1 < n)) = (List.range n).map fun i => (i, f i) :=
    List.filter_eq_self.2 fun e he => by
      obtain ⟨i, hi, rfl⟩ := List.mem_map.1 he
      exact decide_eq_true (List.mem_range.1 hi)
  have hnone : ((List.range n).map fun i => (i, f i)).filter (fun e => decide (n < e.1)) = [] :=
    List.filter_eq_nil_iff.2 fun e he => by
      obtain ⟨i, hi, rfl⟩ := List.mem_map.1 he
      simpa using (List.mem_range.1 hi).le
  have hkeep : (c.filter fun e => decide (n ≤ e.1)).filter (fun e => decide (e.1 < n)) = [] :=
    List.filter_eq_nil_iff.2 fun e he => by simpa using (List.mem_filter.1 he).2
  have habove : (c.filter fun e => decide (n ≤ e.1)).filter (fun e => decide (n < e.1)) =
      c.filter fun e => decide (n + 1 ≤ e.1) := by
    rw [List.filter_filter]
    refine List.filter_congr fun e _ => ?_
    rw [← Bool.decide_and, decide_eq_decide]
    omega
  rw [Cells.put, Cells.fill, Cells.fill, List.filter_append, List.filter_append, hbelow, hnone, hkeep, habove, List.range_succ,
    List.map_append]
  simp

theorem foldl_setXi_put (z : Bits64) (n : Nat) (s : State) :
    (List.range n).foldl (fun u i => u.setXi (u.xi.put i z)) s = s.setXi (s.xi.fill n fun _ => z) := by
  induction n with
  | zero => rw [Cells.fill_zero]; rfl
  | succ n ih =>
    rw [List.range_succ, List.foldl_append, ih, List.foldl_cons, List.foldl_nil, State.setXi_xi, Cells.put_fill _ _ fun _ => z]
    rfl

theorem State.cachePrepare_setXi (n : Nat) (c : Cells Bits64) (s : State) :
    (s.setXi c).cachePrepare n = (s.cachePrepare n).setXi c := by
  by_cases h : n < 2 ∨ s.twlen = n
  · rw [State.cachePrepare_eq_self h, State.cachePrepare_eq_self (s := s.setXi c) h]
  · obtain ⟨h2, hne⟩ := not_or.1 h
    rw [State.cachePrepare_eq_setTables (not_lt.1 h2) hne, State.cachePrepare_eq_setTables (s := s.setXi c) (not_lt.1 h2) hne]
    rfl

/-- A transform overwrites what the first cells of `XI` held. -/
theorem State.storeTransform_setXi_fill (n : Nat) (f : Nat → Bits64) (y : List (Cx Bits64)) (s : State) :
    (s.setXi (s.xi.fill n f)).storeTransform n y = s.storeTransform n y := by
  rw [State.storeTransform, State.setXi_xi, Cells.fill_fill]
  rfl

theorem State.complexInput_zero_imaginary (n : Nat) (s : State) :
    (s.setXi (s.xi.fill n fun _ => F64.zero)).complexInput n = s.realInput n := by
  refine List.map_congr_left fun i hi => ?_
  have hxi : (s.setXi (s.xi.fill n fun _ => F64.zero)).rdXi i = F64.ofInt 0 := by
    simp [State.rdXi, List.mem_range.1 hi, ofInt_zero]
  rw [hxi]
  rfl

/-- Settles O30: the writes fill the first cells of `XI` with +0, the transform reads that as the real input, and overwrites it. -/
theorem fftrIsFftWithZeroImaginary : Obligations.FftrIsFftWithZeroImaginary := by
  intro n s hn
  refine ⟨?_, _, exec_fftr_of_legal hn s⟩
  have hxi : s.xi = (s.cachePrepare n).xi := (State.cachePrepare_xi s n).symm
  rw [foldl_setXi_put, exec_fftr_of_legal hn, exec_fft_of_legal hn, State.fftBody, State.cachePrepare_setXi, hxi,
    State.complexInput_zero_imaginary, State.storeTransform_setXi_fill]
  rfl

end Sys2Proof.Machine
end

section
/-! ### The transform reads the table of its length below half of it, whatever cache it finds (R142, R146) -/
namespace Sys2Proof.Machine

variable {T : Type} {s u : State} {n : Nat}

/-- The table of R143 for a length. -/
def twTable (o : Num T) (n k : Nat) : Cx T := ⟨twCos o k n, twSin o k n⟩

/-- The index a level of length `2^a` reads lies in the table of the length `2^b`. -/
theorem stride_lt {a b i : Nat} (ha : 1 ≤ a) (hab : a ≤ b) (hi : i < 2 ^ (a - 1)) : i * (2 ^ b / 2 ^ a) < 2 ^ b / 2 := by
  have hhalf : 2 ^ b / 2 = 2 ^ (a - 1) * 2 ^ (b - a) := by
    rw [← pow_add, show b = a - 1 + (b - a) + 1 by omega, pow_succ, Nat.mul_div_cancel _ Nat.two_pos]
    congr 1
    omega
  rw [Nat.pow_div hab Nat.two_pos, hhalf]
  exact Nat.mul_lt_mul_of_pos_right hi (Nat.two_pow_pos _)

/-- The recursion reads the table below half its length only. -/
theorem fftRec_congr_table (o : Num T) {tw tw' : Nat → Cx T} {b : Nat} (htw : ∀ k, k < 2 ^ b / 2 → tw k = tw' k) {d : Nat}
    (hd : d ≤ b) {x : List (Cx T)} (hx : x.length = 2 ^ d) : fftRec o tw (2 ^ b) d x = fftRec o tw' (2 ^ b) d x := by
  induction d generalizing x with
  | zero => rfl
  | succ d ih =>
    obtain ⟨he, ho⟩ := length_halves hx
    have hmul : (fftRec o tw' (2 ^ b) d (odds x)).mapIdx (fun i y => cxMul o (tw (i * (2 ^ b / 2 ^ (d + 1)))) y) =
        (fftRec o tw' (2 ^ b) d (odds x)).mapIdx (fun i y => cxMul o (tw' (i * (2 ^ b / 2 ^ (d + 1)))) y) := by
      refine List.ext_getElem (by simp) fun i hi _ => ?_
      rw [List.length_mapIdx, length_fftRec o tw' _ ho] at hi
      rw [List.getElem_mapIdx, List.getElem_mapIdx, htw _ (stride_lt (Nat.le_add_left 1 d) hd hi)]
    rw [fftRec, fftRec, ih (by omega) he, ih (by omega) ho, hmul]

/-- The cache a command of length at least 2 leaves is the table of its length. -/
theorem State.cachePrepare_twiddle (h : TablesMatch s) (hn : 2 ≤ n) {k : Nat} (hk : k < n / 2) :
    (s.cachePrepare n).twiddle k = twTable Num.f64 n k := by
  have hlook : (s.cachePrepare n).twc.look k = some (twCos Num.f64 k n) ∧
      (s.cachePrepare n).tws.look k = some (twSin Num.f64 k n) := by
    by_cases hkey : s.twlen = n
    · rw [State.cachePrepare_eq_self (.inr hkey)]
      subst hkey
      exact h k hk
    · rw [State.cachePrepare_eq_setTables hn hkey]
      exact State.setTables_tablesMatch n s.twc s.tws s k hk
  rw [State.twiddle, State.rdTwc, State.rdTws, hlook.1, hlook.2]
  rfl

/-- From a cache that matches its key the transform is that with the table of R143. -/
theorem transform_cachePrepare (h : TablesMatch s) (hn : n ∈ legalLengths) {x : List (Cx Bits64)} (hx : x.length = n) :
    (s.cachePrepare n).transform n x = fftRec Num.f64 (twTable Num.f64 n) n n.log2 x := by
  obtain ⟨b, -, rfl⟩ := exists_pow_of_legal hn
  rw [State.transform, Nat.log2_two_pow]
  cases b with
  | zero => rfl
  | succ b =>
    exact fftRec_congr_table _ (fun k hk => State.cachePrepare_twiddle h (Nat.le_self_pow b.succ_ne_zero 2) hk) le_rfl hx

/-! ### The same number, up to the payload of a NaN (U15) -/

theorem sameNumber_settleNan (s u : State) (b : Buf) (i : Nat) (v : Bits64) :
    SameNumber (s.settleNan b i v) (u.settleNan b i v) := by
  unfold State.settleNan
  split
  case isTrue => exact .inr ⟨isNaN_anyNaN _ _ _, isNaN_anyNaN _ _ _⟩
  case isFalse => exact .inl rfl

theorem sameNumber_outCell (n : Nat) (b : Buf) (i : Nat) (v : Bits64) (s u : State) :
    SameNumber (s.outCell n b i v) (u.outCell n b i v) := by
  unfold State.outCell
  split
  case isTrue => exact .inl rfl
  case isFalse => exact sameNumber_settleNan s u b i v

/-- Two states that store the same transform hold the same numbers. -/
theorem sameNumber_storeTransform (n : Nat) (y : List (Cx Bits64)) (s u : State) {i : Nat} (hi : i < n) :
    Option.Rel SameNumber ((s.storeTransform n y).xr.look i) ((u.storeTransform n y).xr.look i) ∧
      Option.Rel SameNumber ((s.storeTransform n y).xi.look i) ((u.storeTransform n y).xi.look i) := by
  simp only [State.storeTransform_xr, State.storeTransform_xi, Cells.look_fill, if_pos hi]
  exact ⟨.some (sameNumber_outCell ..), .some (sameNumber_outCell ..)⟩

theorem mul_self_congr {v w : Bits64} (h : SameNumber v w) : F64.mul v v = F64.mul w w := by
  obtain rfl | ⟨hv, hw⟩ := h
  · rfl
  · rw [F64.mul_eq_qNaN (.inl hv), F64.mul_eq_qNaN (.inl hw)]

theorem magnitude_congr {x y : Cx Bits64} (hr : SameNumber x.re y.re) (hi : SameNumber x.im y.im) :
    magnitude Num.f64 x = magnitude Num.f64 y :=
  congrArg F64.sqrt (congrArg₂ F64.add (mul_self_congr hr) (mul_self_congr hi))

section TwoCaches
variable (hn : n ∈ legalLengths) (hs : TablesMatch s) (hu : TablesMatch u) (hr : ∀ i, i < n → s.rdXr i = u.rdXr i)
include hn hs hu hr

theorem sameNumber_fftBody (him : ∀ i, i < n → s.rdXi i = u.rdXi i) {i : Nat} (hi : i < n) :
    Option.Rel SameNumber ((s.fftBody n).xr.look i) ((u.fftBody n).xr.look i) ∧
      Option.Rel SameNumber ((s.fftBody n).xi.look i) ((u.fftBody n).xi.look i) := by
  have hin : (s.cachePrepare n).complexInput n = (u.cachePrepare n).complexInput n :=
    List.map_congr_left fun j hj => by simp [hr j (List.mem_range.1 hj), him j (List.mem_range.1 hj)]
  have hlen : ((u.cachePrepare n).complexInput n).length = n := by simp [State.complexInput]
  rw [State.fftBody, State.fftBody, hin, transform_cachePrepare hs hn hlen, transform_cachePrepare hu hn hlen]
  exact sameNumber_storeTransform n _ _ _ hi

theorem sameNumber_fftrBody {i : Nat} (hi : i < n) :
    Option.Rel SameNumber ((s.fftrBody n).xr.look i) ((u.fftrBody n).xr.look i) ∧
      Option.Rel SameNumber ((s.fftrBody n).xi.look i) ((u.fftrBody n).xi.look i) := by
  have hin : (s.cachePrepare n).realInput n = (u.cachePrepare n).realInput n :=
    List.map_congr_left fun j hj => by simp [hr j (List.mem_range.1 hj)]
  have hlen : ((u.cachePrepare n).realInput n).length = n := by simp [State.realInput]
  rw [State.fftrBody, State.fftrBody, hin, transform_cachePrepare hs hn hlen, transform_cachePrepare hu hn hlen]
  exact sameNumber_storeTransform n _ _ _ hi

theorem sameNumber_magBody {i : Nat} (hi : i < n) : Option.Rel SameNumber ((s.magBody n).mag.look i) ((u.magBody n).mag.look i) := by
  obtain ⟨hre, him⟩ := sameNumber_fftrBody hn hs hu hr hi
  have hmag : magnitude Num.f64 ⟨(s.fftrBody n).rdXr i, (s.fftrBody n).rdXi i⟩ =
      magnitude Num.f64 ⟨(u.fftrBody n).rdXr i, (u.fftrBody n).rdXi i⟩ := by
    obtain ⟨-, v, w, -, hv, hw, -⟩ := (transformStored_fftrBody hn s).values i hi
    obtain ⟨-, v', w', -, hv', hw', -⟩ := (transformStored_fftrBody hn u).values i hi
    rw [hv, hv'] at hre
    rw [hw, hw'] at him
    simp only [State.rdXr, State.rdXi, hv, hw, hv', hw']
    exact magnitude_congr (Option.rel_some_some.1 hre) (Option.rel_some_some.1 him)
  rw [look_magBody_mag, look_magBody_mag, if_pos hi, if_pos hi, hmag]
  exact .some (sameNumber_settleNan ..)

end TwoCaches

/-- Settles O29: whatever cache it finds, the transform is that with the table of its length, so both states store the same results. -/
theorem transformIgnoresTheCache : Obligations.TransformIgnoresTheCache := by
  intro n s u hn hs hu hr
  refine ⟨fun him => ⟨_, _, exec_fft_of_legal hn s, exec_fft_of_legal hn u, fun i hi => sameNumber_fftBody hn hs hu hr him hi⟩,
    ⟨_, _, exec_fftr_of_legal hn s, exec_fftr_of_legal hn u, fun i hi => sameNumber_fftrBody hn hs hu hr hi⟩,
    ⟨_, _, exec_mag_of_legal hn s, exec_mag_of_legal hn u, fun i hi => ⟨sameNumber_magBody hn hs hu hr hi, ?_⟩⟩⟩
  simpa using sameNumber_fftrBody hn hs hu hr hi

end Sys2Proof.Machine
end

section
/-! ### The twiddle table: its range, its first entry, and its values in exact real numbers (R143) -/
namespace Sys2Proof.Machine

/-- A whole number as a number, while it is far from the overflow: finite, and at least 1 if it is. -/
theorem ofInt_bounds {k : Nat} (hk : k ≤ 2048) :
    F64.isFinite (F64.ofInt k) = true ∧ |realOf (F64.ofInt k)| ≤ 4096 ∧ (1 ≤ k → 1 ≤ realOf (F64.ofInt k)) := by
  have hreal : |((k : Int) : ℝ)| ≤ 2048 := by
    rw [Int.cast_natCast, Nat.abs_cast]
    exact_mod_cast hk
  have hround := roundsTo_ofInt k
  obtain ⟨hfin, habs⟩ := hround.abs_realOf_le (hreal.trans (by norm_num))
  refine ⟨hfin, by linarith, fun h1 => ?_⟩
  rw [← realOf_ofInt_one]
  refine hround.le_realOf (lt_overflow_of_le (hreal.trans (by norm_num))) (by decide +kernel) ?_
  rw [realOf_ofInt_one]
  exact_mod_cast h1

/-- The factor `−2·π` of every angle. -/
def twFactor : Bits64 := F64.mul (F64.ofInt (-2)) F64.pi

theorem twTheta_f64 (k n : Nat) : twTheta Num.f64 k n = F64.div (F64.mul twFactor (F64.ofInt k)) (F64.ofInt n) := by
  simp only [twTheta, Num.f64, twFactor]

theorem isFinite_twFactor : F64.isFinite twFactor = true := by decide +kernel

theorem abs_realOf_twFactor_le : |realOf twFactor| ≤ 14 := by
  have h7 := (roundsTo_ofInt 7).abs_realOf_le (by norm_num)
  have hmag : |realOf twFactor| ≤ |realOf (F64.ofInt 7)| := abs_realOf_le_abs_realOf_iff.2 (by decide +kernel)
  exact hmag.trans (h7.2.trans (by norm_num))

theorem twProduct_bounds {k : Nat} (hk : k ≤ 2048) : F64.isFinite (F64.mul twFactor (F64.ofInt k)) = true ∧
    |realOf (F64.mul twFactor (F64.ofInt k))| ≤ 2 ^ 17 := by
  obtain ⟨hfin, habs, -⟩ := ofInt_bounds hk
  have hprod : |realOf twFactor * realOf (F64.ofInt k)| ≤ 14 * 4096 := by
    rw [abs_mul]
    exact mul_le_mul abs_realOf_twFactor_le habs (abs_nonneg _) (by norm_num)
  obtain ⟨hf, hb⟩ := (roundsTo_mul isFinite_twFactor hfin).abs_realOf_le (hprod.trans (by norm_num))
  exact ⟨hf, by linarith⟩

theorem isZero_ofInt_eq_false {n : Nat} (h1 : 1 ≤ n) (hn : n ≤ 2048) : F64.isZero (F64.ofInt n) = false := by
  by_contra h
  have hone := (ofInt_bounds hn).2.2 h1
  rw [realOf_of_isZero (Bool.eq_true_of_not_eq_false h)] at hone
  linarith

theorem isFinite_twTheta {k n : Nat} (h1 : 1 ≤ n) (hn : n ≤ 2048) (hk : k ≤ 2048) : F64.isFinite (twTheta Num.f64 k n) = true := by
  obtain ⟨hfin, -, hone⟩ := ofInt_bounds hn
  obtain ⟨hpf, hpb⟩ := twProduct_bounds hk
  rw [twTheta_f64]
  refine ((roundsTo_div hpf hfin (isZero_ofInt_eq_false h1 hn)).abs_realOf_le ?_).1
  rw [abs_div]
  exact (div_le_self (abs_nonneg _) ((hone h1).trans (le_abs_self _))).trans (hpb.trans (by norm_num))

theorem bounds_of_legal {n : Nat} (h : n ∈ legalLengths) : 1 ≤ n ∧ n ≤ 2048 := by
  obtain ⟨b, hb, rfl⟩ := exists_pow_of_legal h
  exact ⟨Nat.one_le_two_pow, Nat.pow_le_pow_right Nat.two_pos hb⟩

theorem isFinite_twTheta_of_legal {k n : Nat} (h : n ∈ legalLengths) (hk : k < n / 2) :
    F64.isFinite (twTheta Num.f64 k n) = true := by
  obtain ⟨h1, hn⟩ := bounds_of_legal h
  exact isFinite_twTheta h1 hn (by omega)

theorem neg_ofInt_natCast (k : Nat) : F64.neg (F64.ofInt k) = false := (neg_ofInt k).trans (decide_eq_false (by omega))

theorem roundMag_zero (den : Nat) : F64.roundMag 0 den = 0 := by simp [F64.roundMag]

/-- The angle as one rounding of grid units, with the sign of `−2·π`. -/
theorem twTheta_eq_round {k n : Nat} (h1 : 1 ≤ n) (hn : n ≤ 2048) (hk : k ≤ 2048) : twTheta Num.f64 k n =
    F64.round (F64.neg twFactor) (F64.grid (F64.mul twFactor (F64.ofInt k)) * F64.unit) (F64.grid (F64.ofInt n)) := by
  rw [twTheta_f64, F64.div_of_isFinite (twProduct_bounds hk).1 (ofInt_bounds hn).1 (isZero_ofInt_eq_false h1 hn),
    neg_mul_of_isFinite isFinite_twFactor (ofInt_bounds hk).1, neg_ofInt_natCast, neg_ofInt_natCast, Bool.bne_false, Bool.bne_false]

theorem twTheta_zero {n : Nat} (h : n ∈ legalLengths) : twTheta Num.f64 0 n = 0x8000000000000000#64 := by
  obtain ⟨h1, hn⟩ := bounds_of_legal h
  have hneg : F64.neg twFactor = true := by decide +kernel
  have hgrid : F64.grid (F64.mul twFactor (F64.ofInt (0 : Nat))) = 0 := by decide +kernel
  rw [twTheta_eq_round h1 hn (Nat.zero_le _), hneg, hgrid, Nat.zero_mul, F64.round, roundMag_zero]
  rfl

theorem twCos_real (k n : Nat) : twCos Num.real k n = Real.cos (2 * Real.pi * k / n) := by
  simp [twCos, twTheta, Num.real, neg_div]

theorem twSin_real (k n : Nat) : twSin Num.real k n = -Real.sin (2 * Real.pi * k / n) := by
  simp [twSin, twTheta, Num.real, neg_div]

/-- Settles O20: no rounding on the way to an angle comes near the overflow, so the properties of R9 for finite operands hold; the
angle of entry 0 is a zero. -/
theorem twiddleTableValues : Obligations.TwiddleTableValues := by
  refine ⟨fun k n => by simp only [twCos, twSin, twTheta, Num.f64, and_self], fun n k hn hk => ?_, fun n hn => ?_,
    fun k n => ⟨twCos_real k n, twSin_real k n⟩⟩
  · have hθ := isFinite_twTheta_of_legal hn hk
    obtain ⟨hcf, hcm⟩ := Config.math.cosFin _ hθ
    obtain ⟨hsf, hsm⟩ := Config.math.sinFin _ hθ
    exact ⟨hcf, hcm, hsf, hsm⟩
  · have hθ := twTheta_zero hn
    have hz : F64.isZero (twTheta Num.f64 0 n) = true := by rw [hθ]; decide
    exact ⟨hθ, Config.math.cos0 _ hz, Config.math.sin0 _ hz⟩

end Sys2Proof.Machine
end

section
/-! ### Rounding commutes with a power of two, away from the subnormals and the overflow (R8) -/
namespace Sys2Proof

variable {num den s : Nat}

theorem F64.log2_mul_two_pow_div (hden : 0 < den) (h : num / den ≠ 0) : (num * 2 ^ s / den).log2 = (num / den).log2 + s := by
  have hs := Nat.two_pow_pos s
  obtain ⟨hlo, hhi⟩ := (Nat.log2_eq_iff h).1 rfl
  rw [Nat.le_div_iff_mul_le hden] at hlo
  rw [Nat.div_lt_iff_lt_mul hden] at hhi
  have hlo' : 2 ^ ((num / den).log2 + s) ≤ num * 2 ^ s / den := by
    rw [Nat.le_div_iff_mul_le hden, pow_add, Nat.mul_right_comm]
    exact Nat.mul_le_mul_right _ hlo
  have hhi' : num * 2 ^ s / den < 2 ^ ((num / den).log2 + s + 1) := by
    rw [Nat.div_lt_iff_lt_mul hden, Nat.add_right_comm, pow_add _ (_ + 1) s, Nat.mul_right_comm]
    exact Nat.mul_lt_mul_of_pos_right hhi hs
  exact (Nat.log2_eq_iff ((Nat.two_pow_pos _).trans_le hlo').ne').2 ⟨hlo', hhi'⟩

/-- The shift grows by `s`, quotient and remainder stay in proportion. -/
theorem F64.roundUnclamped_mul_two_pow (hden : 0 < den) (h : 2 ^ 52 ≤ num / den) :
    F64.roundUnclamped (num * 2 ^ s) den = F64.roundUnclamped num den + s * 2 ^ 52 := by
  have h0 : num / den ≠ 0 := (Nat.two_pow_pos 52 |>.trans_le h).ne'
  have h52 : 52 ≤ (num / den).log2 := (Nat.le_log2 h0).2 h
  have hs := Nat.two_pow_pos s
  simp only [F64.roundUnclamped, F64.log2_mul_two_pow_div hden h0]
  rw [show (num / den).log2 + s - 52 = (num / den).log2 - 52 + s by omega]
  generalize (num / den).log2 - 52 = sh
  rw [pow_add, ← Nat.mul_assoc, Nat.mul_div_mul_right _ _ hs, Nat.mul_mod_mul_right, ← Nat.mul_assoc]
  simp only [Nat.mul_lt_mul_right hs, Nat.mul_left_inj hs.ne']
  ring

theorem F64.magGrid_add_mul_two_pow {m : Nat} (h : 2 ^ 52 ≤ m) : F64.magGrid (m + s * 2 ^ 52) = F64.magGrid m * 2 ^ s := by
  obtain ⟨sh, q, rfl, hq, hn⟩ : ∃ sh q, m = sh * 2 ^ 52 + q ∧ q ≤ 2 ^ 53 ∧ 2 ^ 52 ≤ q :=
    ⟨m / 2 ^ 52 - 1, m - (m / 2 ^ 52 - 1) * 2 ^ 52, by omega, by omega, by omega⟩
  rw [Nat.add_right_comm, ← Nat.add_mul, F64.magGrid_shift hq (.inr hn), F64.magGrid_shift hq (.inr hn), pow_add, Nat.mul_assoc]

theorem F64.le_roundUnclamped (h : 2 ^ 52 ≤ num / den) : 2 ^ 52 ≤ F64.roundUnclamped num den := by
  have hn := (F64.keptQuotient_bounds (num / den)).2
  rw [Nat.div_div_eq_div_mul] at hn
  simp only [F64.roundUnclamped]
  obtain h0 | hq := hn
  · rw [h0, pow_zero, mul_one]
    omega
  · omega

theorem F64.roundMag_mul_two_pow (hden : 0 < den) (h : 2 ^ 52 ≤ num / den) (hov : F64.roundMag (num * 2 ^ s) den < F64.infMag) :
    F64.magGrid (F64.roundMag (num * 2 ^ s) den) = F64.magGrid (F64.roundMag num den) * 2 ^ s := by
  rw [F64.roundMag_eq_min, F64.roundUnclamped_mul_two_pow hden h] at hov ⊢
  rw [F64.roundMag_eq_min, min_eq_left (by omega), min_eq_left (by omega), F64.magGrid_add_mul_two_pow (F64.le_roundUnclamped h)]

theorem F64.roundMag_mul_right {c : Nat} (hc : 0 < c) : F64.roundMag (num * c) (den * c) = F64.roundMag num den := by
  simp only [F64.roundMag]
  rw [Nat.mul_div_mul_right _ _ hc]
  generalize (num / den).log2 - 52 = sh
  rw [Nat.mul_right_comm, Nat.mul_div_mul_right _ _ hc, Nat.mul_mod_mul_right, ← Nat.mul_assoc]
  simp only [Nat.mul_lt_mul_right hc, Nat.mul_left_inj hc.ne']

end Sys2Proof
end

section
/-! ### The stride reads the twiddle of the level (R146) -/
namespace Sys2Proof.Machine

theorem grid_round (neg : Bool) (num den : Nat) : F64.grid (F64.round neg num den) = F64.magGrid (F64.roundMag num den) :=
  F64.grid_ofMag neg ((min_le_right _ _).trans_lt (by decide))

theorem mag_round (neg : Bool) (num den : Nat) : F64.mag (F64.round neg num den) = F64.roundMag num den :=
  F64.mag_ofMag neg ((min_le_right _ _).trans_lt (by decide))

/-- A finite rounding of a power of two times a quotient that is no subnormal is that power times its rounding. -/
theorem grid_round_mul_two_pow (neg neg' : Bool) {num den s : Nat} (hden : 0 < den) (h : 2 ^ 52 * den ≤ num)
    (hfin : F64.isFinite (F64.round neg' (num * 2 ^ s) den) = true) :
    F64.grid (F64.round neg' (num * 2 ^ s) den) = F64.grid (F64.round neg num den) * 2 ^ s := by
  rw [F64.isFinite_iff, mag_round] at hfin
  rw [grid_round, grid_round, F64.roundMag_mul_two_pow hden ((Nat.le_div_iff_mul_le hden).2 h) hfin]

section PowerOfTwo
variable {k s : Nat} (h1 : 1 ≤ k) (hk : k * 2 ^ s ≤ 2048)
include h1 hk

theorem grid_ofInt_mul_two_pow : F64.grid (F64.ofInt (k * 2 ^ s : Nat)) = F64.grid (F64.ofInt k) * 2 ^ s := by
  have hfin := (ofInt_bounds hk).1
  have heq : F64.ofInt (k * 2 ^ s : Nat) = F64.round (decide (((k * 2 ^ s : Nat) : Int) < 0)) (k * F64.unit * 2 ^ s) 1 := by
    rw [F64.ofInt, Int.natAbs_natCast, Nat.mul_right_comm]
  rw [heq] at hfin ⊢
  have hunit : 2 ^ 52 ≤ F64.unit := by
    rw [F64.unit]
    gcongr <;> decide
  refine grid_round_mul_two_pow _ _ Nat.one_pos ?_ hfin
  rw [mul_one]
  exact hunit.trans (Nat.le_mul_of_pos_left _ h1)

theorem grid_twProduct_mul_two_pow : F64.grid (F64.mul twFactor (F64.ofInt (k * 2 ^ s : Nat))) =
    F64.grid (F64.mul twFactor (F64.ofInt k)) * 2 ^ s := by
  have hk' : k ≤ 2048 := (Nat.le_mul_of_pos_right k (Nat.two_pow_pos s)).trans hk
  obtain ⟨hf, -, hone⟩ := ofInt_bounds hk'
  have hfin := (twProduct_bounds hk).1
  rw [F64.mul_of_isFinite isFinite_twFactor (ofInt_bounds hk).1, grid_ofInt_mul_two_pow h1 hk, ← Nat.mul_assoc] at hfin ⊢
  rw [F64.mul_of_isFinite isFinite_twFactor hf]
  have hfactor : 2 ^ 52 ≤ F64.grid twFactor := by decide +kernel
  have hinteger : F64.unit ≤ F64.grid (F64.ofInt k) := by
    have hunit : F64.grid (F64.ofInt 1) = F64.unit := by decide +kernel
    have hmag : F64.mag (F64.ofInt 1) ≤ F64.mag (F64.ofInt k) := by
      rw [← abs_realOf_le_abs_realOf_iff, realOf_ofInt_one, abs_one]
      exact (hone h1).trans (le_abs_self _)
    rw [← hunit, F64.grid_eq_magGrid, F64.grid_eq_magGrid]
    exact F64.magGrid_strictMono.monotone hmag
  exact grid_round_mul_two_pow _ _ F64.unit_pos (Nat.mul_le_mul hfactor hinteger) hfin

end PowerOfTwo

/-- Both operands of the division grow by one power of two, exactly, so the angle stays bit for bit. -/
theorem twTheta_mul_two_pow {k n s : Nat} (h1 : 1 ≤ k) (hn : 1 ≤ n) (hk : k * 2 ^ s ≤ 2048) (hns : n * 2 ^ s ≤ 2048) :
    twTheta Num.f64 (k * 2 ^ s) (n * 2 ^ s) = twTheta Num.f64 k n := by
  have hs := Nat.two_pow_pos s
  rw [twTheta_eq_round (Nat.mul_pos hn hs) hns hk,
    twTheta_eq_round hn ((Nat.le_mul_of_pos_right n hs).trans hns) ((Nat.le_mul_of_pos_right k hs).trans hk),
    grid_twProduct_mul_two_pow h1 hk, grid_ofInt_mul_two_pow hn hns, Nat.mul_right_comm, F64.round, F64.round,
    F64.roundMag_mul_right hs]

/-- The angle read with the stride is the angle of the level. -/
theorem twTheta_stride {a b i : Nat} (ha : 1 ≤ a) (hab : a ≤ b) (hb : b ≤ 11) (hi : i < 2 ^ (a - 1)) :
    twTheta Num.f64 (i * (2 ^ b / 2 ^ a)) (2 ^ b) = twTheta Num.f64 i (2 ^ a) := by
  have hb' : 2 ^ b ≤ 2048 := Nat.pow_le_pow_right Nat.two_pos hb
  have hpow : 2 ^ b = 2 ^ a * 2 ^ (b - a) := by rw [← pow_add, Nat.add_sub_cancel' hab]
  have hlt := stride_lt ha hab hi
  rw [Nat.pow_div hab Nat.two_pos] at hlt ⊢
  obtain rfl | h1 := Nat.eq_zero_or_pos i
  · rw [Nat.zero_mul, twTheta_zero (legalLen_iff_mem.1 (legalLen_iff_exists_pow.2 ⟨b, hb, rfl⟩)),
      twTheta_zero (legalLen_iff_mem.1 (legalLen_iff_exists_pow.2 ⟨a, hab.trans hb, rfl⟩))]
  · rw [hpow]
    exact twTheta_mul_two_pow h1 Nat.one_le_two_pow (by omega) (hpow ▸ hb')

/-- In exact real numbers the stride cancels in the angle. -/
theorem twTheta_real_stride {a b : Nat} (i : Nat) (hab : a ≤ b) :
    twTheta Num.real (i * (2 ^ b / 2 ^ a)) (2 ^ b) = -2 * Real.pi * i / 2 ^ a := by
  have hpow : (2 : ℝ) ^ b = 2 ^ a * 2 ^ (b - a) := by rw [← pow_add, Nat.add_sub_cancel' hab]
  rw [Nat.pow_div hab Nat.two_pos]
  simp only [twTheta, Num.real]
  push_cast
  rw [hpow]
  field_simp

/-- Settles O26: a power of two in both operands of the division changes no bit of the angle. -/
theorem strideReadsTheLevelsTwiddle : Obligations.StrideReadsTheLevelsTwiddle :=
  ⟨fun _ _ _ ha hab hb hi => ⟨stride_lt ha hab hi, congrArg Num.f64.fcos (twTheta_stride ha hab hb hi),
      congrArg Num.f64.fsin (twTheta_stride ha hab hb hi)⟩,
    fun _ _ i hab => ⟨congrArg Real.cos (twTheta_real_stride i hab), congrArg Real.sin (twTheta_real_stride i hab)⟩⟩

end Sys2Proof.Machine
end

section
/-! ### The impulse (R151 (P1)) -/
namespace Sys2Proof.Machine

/-- A complex number whose parts are zeros, of either sign. -/
def IsZeroCx (z : Cx Bits64) : Prop := F64.isZero z.re = true ∧ F64.isZero z.im = true

/-- The number 1: its imaginary part is a zero of either sign. -/
def IsOneCx (z : Cx Bits64) : Prop := z.re = F64.one ∧ F64.isZero z.im = true

/-- A table entry that keeps zeros zero. -/
def IsFiniteCx (z : Cx Bits64) : Prop := F64.isFinite z.re = true ∧ F64.isFinite z.im = true

/-- 1 in front, zeros behind. -/
def IsImpulse (x : List (Cx Bits64)) : Prop :=
  (∀ z, x[0]? = some z → IsOneCx z) ∧ ∀ m z, 1 ≤ m → x[m]? = some z → IsZeroCx z

section Zeros
variable {a b : Bits64} (hb : F64.isZero b = true)
include hb

theorem isZero_mul_of_isFinite (ha : F64.isFinite a = true) : F64.isZero (F64.mul a b) = true := by
  have h := roundsTo_mul ha (F64.isFinite_of_isZero hb)
  rw [realOf_of_isZero hb, mul_zero] at h
  exact h.isZero

theorem isZero_add (ha : F64.isZero a = true) : F64.isZero (F64.add a b) = true := by
  have h := roundsTo_add (F64.isFinite_of_isZero ha) (F64.isFinite_of_isZero hb)
  rw [realOf_of_isZero ha, realOf_of_isZero hb, add_zero] at h
  exact h.isZero

theorem isZero_sub (ha : F64.isZero a = true) : F64.isZero (F64.sub a b) = true :=
  isZero_add ((F64.isZero_negate b).trans hb) ha

theorem one_add_of_isZero : F64.add F64.one b = F64.one := by
  rw [← F64.ofMag_neg_mag b, F64.isZero_iff.1 hb]
  cases F64.neg b <;> decide +kernel

theorem one_sub_of_isZero : F64.sub F64.one b = F64.one := one_add_of_isZero ((F64.isZero_negate b).trans hb)

theorem mul_self_of_isZero : F64.mul b b = F64.zero := by
  rw [← F64.ofMag_neg_mag b, F64.isZero_iff.1 hb]
  cases F64.neg b <;> decide +kernel

end Zeros

theorem magnitude_of_isOneCx {z : Cx Bits64} (h : IsOneCx z) : magnitude Num.f64 z = F64.one := by
  obtain ⟨hre, him⟩ := h
  have hval : F64.sqrt (F64.add (F64.mul F64.one F64.one) F64.zero) = F64.one := by decide +kernel
  rw [← hval, ← mul_self_of_isZero him, ← hre]
  rfl

section Butterfly
variable {t e p : Cx Bits64} (ht : IsFiniteCx t) (hp : IsZeroCx p)

include ht hp in
theorem isZeroCx_cxMul : IsZeroCx (cxMul Num.f64 t p) := by
  obtain ⟨htr, hti⟩ := ht
  obtain ⟨hpr, hpi⟩ := hp
  exact ⟨isZero_sub (isZero_mul_of_isFinite hpi hti) (isZero_mul_of_isFinite hpr htr),
    isZero_add (isZero_mul_of_isFinite hpr hti) (isZero_mul_of_isFinite hpi htr)⟩

include hp

theorem isZeroCx_butterfly (he : IsZeroCx e) : IsZeroCx (cxAdd Num.f64 e p) ∧ IsZeroCx (cxSub Num.f64 e p) :=
  ⟨⟨isZero_add hp.1 he.1, isZero_add hp.2 he.2⟩, isZero_sub hp.1 he.1, isZero_sub hp.2 he.2⟩

theorem isOneCx_butterfly (he : IsOneCx e) : IsOneCx (cxAdd Num.f64 e p) ∧ IsOneCx (cxSub Num.f64 e p) := by
  obtain ⟨re, im⟩ := e
  obtain ⟨rfl, him⟩ := he
  exact ⟨⟨one_add_of_isZero hp.1, isZero_add hp.2 him⟩, one_sub_of_isZero hp.1, isZero_sub hp.2 him⟩

end Butterfly

section Recursion
variable {tw : Nat → Cx Bits64} {b d : Nat} (htw : ∀ k, k < 2 ^ b / 2 → IsFiniteCx (tw k)) (hd : d ≤ b) {x : List (Cx Bits64)}
  (hx : x.length = 2 ^ d)
include htw hd hx

/-- The transform of zeros is zeros. -/
theorem isZeroCx_fftRec (h : ∀ (m : Nat) z, x[m]? = some z → IsZeroCx z) {k : Nat} {y : Cx Bits64}
    (hy : (fftRec Num.f64 tw (2 ^ b) d x)[k]? = some y) : IsZeroCx y := by
  induction d generalizing x k y with
  | zero => exact h k y hy
  | succ d ih =>
    obtain ⟨he, ho⟩ := length_halves hx
    obtain ⟨i, e, q, hi, hE, hQ, hout⟩ := exists_butterfly_of_getElem? Num.f64 tw _ hx hy
    have hez := ih (by omega) he (fun m z hz => h (2 * m) z (getElem?_evens x m ▸ hz)) hE
    have hqz := ih (by omega) ho (fun m z hz => h (2 * m + 1) z (getElem?_odds x m ▸ hz)) hQ
    obtain ⟨hadd, hsub⟩ := isZeroCx_butterfly (isZeroCx_cxMul (htw _ (stride_lt (Nat.le_add_left 1 d) hd hi)) hqz) hez
    obtain ⟨-, rfl⟩ | ⟨-, rfl⟩ := hout
    · exact hadd
    · exact hsub

/-- The impulse is in the even-indexed half, the other half is zeros: every output is 1 plus or minus a zero. -/
theorem isOneCx_fftRec (h : IsImpulse x) {k : Nat} {y : Cx Bits64} (hy : (fftRec Num.f64 tw (2 ^ b) d x)[k]? = some y) :
    IsOneCx y := by
  induction d generalizing x k y with
  | zero =>
    obtain ⟨hk, -⟩ := List.getElem?_eq_some_iff.1 hy
    obtain rfl : k = 0 := Nat.lt_one_iff.1 (hk.trans_eq hx)
    exact h.1 y hy
  | succ d ih =>
    obtain ⟨he, ho⟩ := length_halves hx
    obtain ⟨i, e, q, hi, hE, hQ, hout⟩ := exists_butterfly_of_getElem? Num.f64 tw _ hx hy
    have heven : IsImpulse (evens x) :=
      ⟨fun z hz => h.1 z (getElem?_evens x 0 ▸ hz), fun m z hm hz => h.2 (2 * m) z (by omega) (getElem?_evens x m ▸ hz)⟩
    have hqz := isZeroCx_fftRec htw (by omega) ho (fun m z hz => h.2 (2 * m + 1) z (by omega) (getElem?_odds x m ▸ hz)) hQ
    obtain ⟨hadd, hsub⟩ :=
      isOneCx_butterfly (isZeroCx_cxMul (htw _ (stride_lt (Nat.le_add_left 1 d) hd hi)) hqz) (ih (by omega) he heven hE)
    obtain ⟨-, rfl⟩ | ⟨-, rfl⟩ := hout
    · exact hadd
    · exact hsub

end Recursion

/-- The table entries are finite by `P-TRIG-FIN` (R9). -/
theorem isFiniteCx_twTable {n k : Nat} (hn : n ∈ legalLengths) (hk : k < n / 2) : IsFiniteCx (twTable Num.f64 n k) :=
  ⟨(Config.math.cosFin _ (isFinite_twTheta_of_legal hn hk)).1, (Config.math.sinFin _ (isFinite_twTheta_of_legal hn hk)).1⟩

theorem Settled.eq_of_not_isNaN {v y : Bits64} (h : Settled v y) (hy : F64.isNaN y = false) : v = y := by
  unfold Settled at h
  rwa [if_neg (by simp [hy])] at h

section Impulse
variable {n : Nat} {s : State} (hn : n ∈ legalLengths) (hs : TablesMatch s) (h0 : s.xr.look 0 = some F64.one)
  (hm : ∀ m, 1 ≤ m → m < n → ∃ z, s.xr.look m = some z ∧ F64.isZero z = true)
include h0 hm

theorem isImpulse_realInput : IsImpulse ((s.cachePrepare n).realInput n) := by
  have hget : ∀ m z, ((s.cachePrepare n).realInput n)[m]? = some z → m < n ∧ z = ⟨s.rdXr m, F64.zero⟩ := fun m z hz => by
    simp only [State.realInput, State.cachePrepare_rdXr, ofInt_zero, List.getElem?_map, Option.map_eq_some_iff,
      List.getElem?_eq_some_iff, List.length_range, List.getElem_range] at hz
    obtain ⟨_, ⟨hlt, rfl⟩, rfl⟩ := hz
    exact ⟨hlt, rfl⟩
  refine ⟨fun z hz => ?_, fun m z h1 hz => ?_⟩
  · obtain ⟨-, rfl⟩ := hget 0 z hz
    exact ⟨by simp [State.rdXr, h0], F64.isZero_ofMag_zero false⟩
  · obtain ⟨hlt, rfl⟩ := hget m z hz
    obtain ⟨v, hv, hz0⟩ := hm m h1 hlt
    exact ⟨by simpa [State.rdXr, hv] using hz0, F64.isZero_ofMag_zero false⟩

include hn hs

/-- The cells `FFTR` leaves from an impulse. -/
theorem impulse_fftrBody {k : Nat} (hk : k < n) :
    (s.fftrBody n).xr.look k = some F64.one ∧ ∃ z, (s.fftrBody n).xi.look k = some z ∧ F64.isZero z = true := by
  have hlen : ((s.cachePrepare n).realInput n).length = n := by simp [State.realInput]
  have himp := isImpulse_realInput h0 hm
  have hstore : TransformStored n ((s.cachePrepare n).transform n ((s.cachePrepare n).realInput n)) s (s.fftrBody n) :=
    transformStored_storeTransform (length_transform hn hlen _) (by simp) (by simp)
  obtain ⟨y, v, w, hy, hv, hw, hvs, hws, -⟩ := hstore.values k hk
  rw [transform_cachePrepare hs hn hlen] at hy
  have hone : IsOneCx y := by
    obtain ⟨b, -, rfl⟩ := exists_pow_of_legal hn
    rw [Nat.log2_two_pow] at hy
    exact isOneCx_fftRec (fun j hj => isFiniteCx_twTable hn hj) le_rfl hlen himp hy
  obtain ⟨hre, him⟩ := hone
  obtain rfl := hvs.eq_of_not_isNaN (by rw [hre]; decide)
  obtain rfl := hws.eq_of_not_isNaN (F64.isNaN_of_isFinite (F64.isFinite_of_isZero him))
  exact ⟨hv.trans (congrArg some hre), _, hw, him⟩

theorem impulse_magBody {k : Nat} (hk : k < n) : (s.magBody n).mag.look k = some F64.one := by
  obtain ⟨hr, z, hi, hz⟩ := impulse_fftrBody hn hs h0 hm hk
  have hmag : magnitude Num.f64 ⟨(s.fftrBody n).rdXr k, (s.fftrBody n).rdXi k⟩ = F64.one :=
    magnitude_of_isOneCx ⟨by simp [State.rdXr, hr], by simpa [State.rdXi, hi] using hz⟩
  rw [look_magBody_mag, if_pos hk, hmag]
  rfl

end Impulse

/-- Settles O27: a finite table keeps zeros zeros, and 1 plus or minus a zero is 1. -/
theorem impulseHasAFlatSpectrum : Obligations.ImpulseHasAFlatSpectrum := fun _ s hn hs h0 hm =>
  ⟨⟨_, exec_fftr_of_legal hn s, fun _ hk => impulse_fftrBody hn hs h0 hm hk⟩,
    _, exec_mag_of_legal hn s, fun _ hk => impulse_magBody hn hs h0 hm hk⟩

end Sys2Proof.Machine
end

section
/-! ### The discrete Fourier transform and its even-odd splitting (R140) -/
namespace Sys2Proof.Machine

/-- `∑ f m · ω^(k m)` over `m < n`: the transform of length `n` with the root `ω`. -/
def dft (ω : ℂ) (n : ℕ) (f : ℕ → ℂ) (k : ℕ) : ℂ := ∑ m ∈ Finset.range n, f m * ω ^ (k * m)

theorem sum_range_two_mul (n : ℕ) (f : ℕ → ℂ) :
    ∑ m ∈ Finset.range (2 * n), f m = ∑ m ∈ Finset.range n, f (2 * m) + ∑ m ∈ Finset.range n, f (2 * m + 1) := by
  induction n with
  | zero => simp
  | succ n ih =>
    rw [Nat.mul_succ, Finset.sum_range_succ, Finset.sum_range_succ, ih, Finset.sum_range_succ, Finset.sum_range_succ]
    ring

theorem dft_two_mul (ω : ℂ) (n : ℕ) (f : ℕ → ℂ) (k : ℕ) :
    dft ω (2 * n) f k = dft (ω ^ 2) n (fun m => f (2 * m)) k + ω ^ k * dft (ω ^ 2) n (fun m => f (2 * m + 1)) k := by
  rw [dft, sum_range_two_mul, dft, dft, Finset.mul_sum]
  congr 1 <;> refine Finset.sum_congr rfl fun m _ => ?_
  · rw [← pow_mul, Nat.mul_left_comm]
  · rw [← pow_mul, mul_left_comm, ← pow_add]
    congr 2
    ring

theorem dft_add_period {ω : ℂ} {n : ℕ} (h : ω ^ n = 1) (f : ℕ → ℂ) (k : ℕ) : dft ω n f (k + n) = dft ω n f k := by
  refine Finset.sum_congr rfl fun m _ => ?_
  rw [Nat.add_mul, pow_add, pow_mul ω n, h, one_pow, mul_one]

/-- The root of the forward transform of length `n`. -/
noncomputable def dftRoot (n : ℕ) : ℂ := Complex.exp (-(2 * Real.pi * Complex.I / n))

theorem dftRoot_pow (n k : ℕ) : dftRoot n ^ k = Complex.exp (-(2 * Real.pi * Complex.I * k / n)) := by
  rw [dftRoot, ← Complex.exp_nat_mul]
  congr 1
  ring

theorem isPrimitiveRoot_dftRoot {n : ℕ} (hn : n ≠ 0) : IsPrimitiveRoot (dftRoot n) n := by
  rw [dftRoot, Complex.exp_neg]
  exact (Complex.isPrimitiveRoot_exp n hn).inv

theorem dftRoot_mul_pow {m : ℕ} (hm : m ≠ 0) (n : ℕ) : dftRoot (n * m) ^ m = dftRoot n := by
  have hm' : (m : ℂ) ≠ 0 := Nat.cast_ne_zero.2 hm
  rw [dftRoot_pow, dftRoot, Nat.cast_mul, mul_div_mul_right _ _ hm']

theorem dftRoot_two_mul_pow {n : ℕ} (hn : n ≠ 0) : dftRoot (2 * n) ^ n = -1 := by
  rw [dftRoot_mul_pow hn, dftRoot, Nat.cast_ofNat, mul_assoc, mul_div_cancel_left₀ _ two_ne_zero, Complex.exp_neg,
    Complex.exp_pi_mul_I]
  norm_num

/-! ### The recursion in `NUM.real` (R140, R145) -/

/-- A pair of reals as a complex number. -/
def toComplex (z : Cx ℝ) : ℂ := ⟨z.re, z.im⟩

theorem toComplex_cxAdd (e p : Cx ℝ) : toComplex (cxAdd Num.real e p) = toComplex e + toComplex p := rfl

theorem toComplex_cxSub (e p : Cx ℝ) : toComplex (cxSub Num.real e p) = toComplex e - toComplex p := by
  apply Complex.ext <;> rfl

theorem toComplex_cxMul (t x : Cx ℝ) : toComplex (cxMul Num.real t x) = toComplex t * toComplex x := rfl

/-- The table in exact reals holds the powers of the root of its length. -/
theorem toComplex_twTable (n k : ℕ) : toComplex (twTable Num.real n k) = dftRoot n ^ k := by
  rw [dftRoot_pow, show -(2 * Real.pi * Complex.I * k / n) = ((-(2 * Real.pi * k / n) : ℝ) : ℂ) * Complex.I by push_cast; ring]
  apply Complex.ext
  · rw [Complex.exp_ofReal_mul_I_re, Real.cos_neg]
    exact twCos_real k n
  · rw [Complex.exp_ofReal_mul_I_im, Real.sin_neg]
    exact twSin_real k n

/-- The entry a level reads with the stride is the power of the level's own root. -/
theorem toComplex_twTable_stride {a b : ℕ} (hab : a ≤ b) (i : ℕ) :
    toComplex (twTable Num.real (2 ^ b) (i * (2 ^ b / 2 ^ a))) = dftRoot (2 ^ a) ^ i := by
  have hpow : 2 ^ b = 2 ^ a * 2 ^ (b - a) := by rw [← pow_add, Nat.add_sub_cancel' hab]
  rw [toComplex_twTable, Nat.pow_div hab Nat.two_pos, Nat.mul_comm, pow_mul, hpow, dftRoot_mul_pow (Nat.two_pow_pos _).ne']

/-- Element `m` of a sequence, 0 outside it. -/
def elementAt (x : List (Cx ℝ)) (m : ℕ) : ℂ := toComplex (x.getD m ⟨0, 0⟩)

theorem elementAt_evens (x : List (Cx ℝ)) : elementAt (evens x) = fun m => elementAt x (2 * m) := by
  funext m
  simp only [elementAt, List.getD_eq_getElem?_getD, getElem?_evens]

theorem elementAt_odds (x : List (Cx ℝ)) : elementAt (odds x) = fun m => elementAt x (2 * m + 1) := by
  funext m
  simp only [elementAt, List.getD_eq_getElem?_getD, getElem?_odds]

/-- Every level of the recursion is the transform of its own length: the even-odd splitting, with the period of the half-length
transform for the upper outputs and `ω^(n/2) = −1` for their sign. -/
theorem fftRec_real_eq_dft {b d : ℕ} (hd : d ≤ b) {x : List (Cx ℝ)} (hx : x.length = 2 ^ d) {k : ℕ} {y : Cx ℝ}
    (hy : (fftRec Num.real (twTable Num.real (2 ^ b)) (2 ^ b) d x)[k]? = some y) :
    toComplex y = dft (dftRoot (2 ^ d)) (2 ^ d) (elementAt x) k := by
  induction d generalizing x k y with
  | zero =>
    obtain ⟨z, rfl⟩ := List.length_eq_one_iff.1 hx
    obtain ⟨hk, rfl⟩ := List.getElem?_eq_some_iff.1 hy
    obtain rfl : k = 0 := Nat.lt_one_iff.1 hk
    simp [dft, elementAt, fftRec]
  | succ d ih =>
    obtain ⟨he, ho⟩ := length_halves hx
    obtain ⟨i, e, q, hi, hE, hQ, hout⟩ := exists_butterfly_of_getElem? Num.real (twTable Num.real (2 ^ b)) _ hx hy
    have hsq : dftRoot (2 ^ (d + 1)) ^ 2 = dftRoot (2 ^ d) := by
      rw [pow_succ 2 d, dftRoot_mul_pow two_ne_zero]
    have hperiod := (isPrimitiveRoot_dftRoot (Nat.two_pow_pos d).ne').pow_eq_one
    have hhalf : dftRoot (2 ^ (d + 1)) ^ 2 ^ d = -1 := by
      rw [pow_succ' 2 d, dftRoot_two_mul_pow (Nat.two_pow_pos d).ne']
    have hsplit := dft_two_mul (dftRoot (2 ^ (d + 1))) (2 ^ d) (elementAt x)
    rw [hsq, ← elementAt_evens, ← elementAt_odds, ← pow_succ'] at hsplit
    have hEdft := ih (by omega) he hE
    have hQdft := ih (by omega) ho hQ
    obtain ⟨rfl, rfl⟩ | ⟨rfl, rfl⟩ := hout
    · rw [toComplex_cxAdd, toComplex_cxMul, toComplex_twTable_stride hd, hsplit, hEdft, hQdft]
    · rw [toComplex_cxSub, toComplex_cxMul, toComplex_twTable_stride hd, hsplit, hEdft, hQdft, dft_add_period hperiod,
        dft_add_period hperiod, pow_add _ i, hhalf]
      ring

/-- Element `k` of the transform of a sequence with its own table. -/
theorem exists_fftRec_real {d : ℕ} {x : List (Cx ℝ)} (hx : x.length = 2 ^ d) {k : ℕ} (hk : k < 2 ^ d) : ∃ y,
    (fftRec Num.real (twTable Num.real (2 ^ d)) (2 ^ d) d x)[k]? = some y ∧
      toComplex y = dft (dftRoot (2 ^ d)) (2 ^ d) (elementAt x) k := by
  have hy := List.getElem?_eq_getElem (length_fftRec Num.real (twTable Num.real (2 ^ d)) (2 ^ d) hx ▸ hk)
  exact ⟨_, hy, fftRec_real_eq_dft le_rfl hx hy⟩

/-- Settles O25: the recursion at its top level, with the powers of the root written as exponentials. -/
theorem realTransformIsTheDft : Obligations.RealTransformIsTheDft := by
  intro d x k hx hk
  obtain ⟨y, hy, hdft⟩ := exists_fftRec_real hx hk
  refine ⟨y, hy, hdft.trans (Finset.sum_congr rfl fun m _ => ?_)⟩
  rw [dftRoot_pow, Nat.cast_mul, ← mul_assoc]
  rfl

end Sys2Proof.Machine
end

section
/-! ### A sinusoid in `NUM.real` (R151 (P2)) -/
namespace Sys2Proof.Machine

/-- The powers of a primitive root of unity sum to its order, or cancel. -/
theorem sum_pow_of_isPrimitiveRoot {ω : ℂ} {n : ℕ} (h : IsPrimitiveRoot ω n) (p : ℕ) :
    ∑ m ∈ Finset.range n, ω ^ (p * m) = if n ∣ p then (n : ℂ) else 0 := by
  simp only [pow_mul]
  split
  case isTrue hdvd => simp [(h.pow_eq_one_iff_dvd p).2 hdvd]
  case isFalse hdvd =>
    have hne : ω ^ p ≠ 1 := mt (h.pow_eq_one_iff_dvd p).1 hdvd
    rw [geom_sum_eq hne, ← pow_mul, Nat.mul_comm, pow_mul, h.pow_eq_one, one_pow, sub_self, zero_div]

/-- A cosine of bin `k` is the mean of the powers `k` and `n − k` of the root (Euler). -/
theorem cos_eq_dftRoot_pow {n k : ℕ} (hn : n ≠ 0) (hk : k ≤ n) (m : ℕ) :
    ((Real.cos (2 * Real.pi * k * m / n) : ℝ) : ℂ) = (dftRoot n ^ (k * m) + dftRoot n ^ ((n - k) * m)) / 2 := by
  have hprod : dftRoot n ^ ((n - k) * m) * dftRoot n ^ (k * m) = 1 := by
    rw [← pow_add, ← Nat.add_mul, Nat.sub_add_cancel hk, pow_mul, (isPrimitiveRoot_dftRoot hn).pow_eq_one, one_pow]
  have hexp : dftRoot n ^ (k * m) = Complex.exp (-(2 * Real.pi * k * m / n) * Complex.I) := by
    rw [dftRoot_pow, Nat.cast_mul]
    congr 1
    ring
  rw [eq_inv_of_mul_eq_one_left hprod, hexp, ← Complex.exp_neg, neg_mul, neg_neg, add_comm, Complex.ofReal_cos, Complex.cos]
  push_cast
  rw [neg_mul]

/-- The spectrum of a cosine of bin `k`: both terms of the mean meet their own power of the root at one index. -/
theorem dft_cos {n k j : ℕ} (h0 : 0 < k) (hk : k < n / 2) (hj : j < n) (a : ℂ) :
    dft (dftRoot n) n (fun m => a * (Real.cos (2 * Real.pi * k * m / n) : ℝ)) j = if j = k ∨ j = n - k then a * n / 2 else 0 := by
  have hn : n ≠ 0 := by omega
  have hlow : n ∣ k + j ↔ j = n - k := by
    refine ⟨fun h => ?_, fun h => ⟨1, by omega⟩⟩
    have := Nat.eq_of_dvd_of_lt_two_mul (by omega) h (by omega)
    omega
  have hhigh : n ∣ n - k + j ↔ j = k := by
    refine ⟨fun h => ?_, fun h => ⟨1, by omega⟩⟩
    have := Nat.eq_of_dvd_of_lt_two_mul (by omega) h (by omega)
    omega
  have hterm : ∀ m : ℕ, a * (Real.cos (2 * Real.pi * k * m / n) : ℝ) * dftRoot n ^ (j * m) =
      a / 2 * (dftRoot n ^ ((k + j) * m) + dftRoot n ^ ((n - k + j) * m)) := fun m => by
    rw [cos_eq_dftRoot_pow hn (by omega), Nat.add_mul, Nat.add_mul, pow_add, pow_add]
    ring
  have hsum := sum_pow_of_isPrimitiveRoot (isPrimitiveRoot_dftRoot hn)
  simp only [dft, hterm, ← Finset.mul_sum, Finset.sum_add_distrib, hsum, hlow, hhigh]
  by_cases h1 : j = k
  · rw [if_neg (by omega), if_pos h1, if_pos (.inl h1)]
    ring
  · by_cases h2 : j = n - k
    · rw [if_pos h2, if_neg h1, if_pos (.inr h2)]
      ring
    · rw [if_neg h2, if_neg h1, if_neg (by tauto)]
      ring

theorem magnitude_real (y : Cx ℝ) : magnitude Num.real y = ‖toComplex y‖ := by
  rw [Complex.norm_def, Complex.normSq_apply]
  rfl

theorem elementAt_map (f : ℕ → ℝ) {n m : ℕ} (hm : m < n) : elementAt ((List.range n).map fun m => ⟨f m, 0⟩) m = (f m : ℂ) := by
  simp only [elementAt, List.getD_eq_getElem?_getD, List.getElem?_map, List.getElem?_range hm]
  rfl

/-- Settles O28: the transform is the Fourier transform, and a cosine of bin `k` has the two terms `k` and `n − k` of it. -/
theorem sinusoidPeaksInTheReals : Obligations.SinusoidPeaksInTheReals := by
  intro d k amp _ _ h0 hk j hj
  obtain ⟨y, hy, hdft⟩ := exists_fftRec_real
    (x := (List.range (2 ^ d)).map fun m : ℕ => ⟨amp * Real.cos (2 * Real.pi * k * m / 2 ^ d), 0⟩) (by simp) hj
  have hcos : toComplex y = if j = k ∨ j = 2 ^ d - k then (amp : ℂ) * (2 ^ d : ℕ) / 2 else 0 := by
    rw [hdft, ← dft_cos h0 hk hj]
    refine Finset.sum_congr rfl fun m hm => ?_
    rw [elementAt_map (fun m => amp * Real.cos (2 * Real.pi * k * m / 2 ^ d)) (Finset.mem_range.1 hm)]
    push_cast
    rfl
  refine ⟨y, hy, ?_⟩
  rw [magnitude_real, hcos, apply_ite norm, norm_zero]
  simp

end Sys2Proof.Machine
end

section
/-! ### `SCALE`: its word, its fault, and the rows it writes (R181) -/
namespace Sys2Proof.Machine

variable {h : Nat} {s : State}

theorem cmdData_scale (hh : h < 4096) : cmdData (.scale h) = 0x40000000#64 ||| BitVec.ofNat 64 h :=
  setWidth_packWord (op := 4) (ia := 0) (b := 0) (by decide) (by decide) (by decide) hh

theorem exec_scale_of_legal (h1 : 1 ≤ h) (hmax : h ≤ 1024) (hm : h ≤ s.mlen) : exec (.scale h) s = .next (s.scaleBody h) :=
  execScale_next.2 (.inl ⟨(legalHeight_iff h s.mlen).2 ⟨h1, hmax, hm⟩, rfl⟩)

theorem scale_raises_eHeight (hh : h < 1 ∨ 1024 < h ∨ s.mlen < h) : Raises 4#4 (.scale h) s :=
  raises_of_exec_eq_raiseFault (c := .eHeight) <| if_neg fun hl => by
    obtain ⟨h1, hmax, hm⟩ := (legalHeight_iff h s.mlen).1 hl
    omega

/-- The rows of the column `SCALE` writes: row 0 is cleared, bin `h − y` lands in row `y`. -/
theorem look_scaleBody_pix {y : Nat} (hy : y < h) (s : State) : (s.scaleBody h).pix.look y =
    some (if y = 0 then 0#8 else BitVec.ofNat 8 (pixel Num.f64 (s.rdMag (h - y)))) := by
  rw [State.scaleBody_pix, Cells.look_fill, if_pos hy]

theorem look_scaleBody_pix_of_le {y : Nat} (hy : h ≤ y) (s : State) : (s.scaleBody h).pix.look y = s.pix.look y := by
  rw [State.scaleBody_pix, Cells.look_fill, if_neg hy.not_gt]

/-- Settles O31: the word is the encoder's, a bad height is the command's own fault, and the body fills the rows below the height. -/
theorem scaleFillsTheColumn : Obligations.ScaleFillsTheColumn := by
  refine ⟨fun h hh => ?_, fun h s hh => scale_raises_eHeight hh, fun h s h1 hmax hm => ⟨_, exec_scale_of_legal h1 hmax hm, ?_⟩⟩
  · rw [← cmdData_scale hh]
    exact decodeAfterEncodeIsTheCommand _ (fitsField_iff.2 hh)
  · refine ⟨look_scaleBody_pix h1 s, fun j hj hjh => ?_, fun y hy => look_scaleBody_pix_of_le hy s, s.scaleBody_xr h, s.scaleBody_xi h,
      s.scaleBody_mag h, s.scaleBody_mlen h, ⟨s.scaleBody_twlen h, s.scaleBody_twc h, s.scaleBody_tws h⟩,
      ⟨s.scaleBody_smp h, s.scaleBody_port h, s.scaleBody_resps h, s.scaleBody_draw h⟩,
      ⟨s.scaleBody_err h, s.scaleBody_errCode h, s.scaleBody_errInfo h⟩⟩
    rw [look_scaleBody_pix (by omega), if_neg (by omega), Nat.sub_sub_self hjh.le]

end Sys2Proof.Machine
end

section
/-! ### The guards of the pixel, and its range (R182, R183) -/
namespace Sys2Proof.Machine

variable {m t v : Bits64}

theorem ofInt_f64 : Num.f64.ofInt = F64.ofInt := rfl
theorem fmul_f64 : Num.f64.fmul = F64.mul := rfl
theorem fsub_f64 : Num.f64.fsub = F64.sub := rfl
theorem half_f64 : Num.f64.half = F64.half := rfl
theorem flog10_f64 : Num.f64.flog10 = Config.math.flog10 := rfl
theorem gt_f64 : Num.f64.gt = F64.gt := rfl
theorem ge_f64 : Num.f64.ge = F64.ge := rfl
theorem truncToNat_f64 : Num.f64.truncToNat = F64.truncToNat := rfl

theorem decibel_f64 (t : Bits64) : decibel Num.f64 t =
    F64.sub (F64.mul (F64.mul (F64.ofInt 10) (Config.math.flog10 t)) (F64.ofInt 4)) (F64.ofInt 43) := by
  rw [decibel, ofInt_f64, fmul_f64, fsub_f64, flog10_f64, Config.kTen, Config.kGain, Config.kOffs]

theorem pixel_f64 (m : Bits64) : pixel Num.f64 m =
    if F64.gt (F64.mul m F64.half) (F64.ofInt 0) then clampTrunc Num.f64 (decibel Num.f64 (F64.mul m F64.half)) else 0 := by
  rw [pixel, gt_f64, ofInt_f64, fmul_f64, half_f64]

theorem clampTrunc_f64 (t : Bits64) : clampTrunc Num.f64 t =
    if F64.gt t (F64.ofInt 0) then if F64.ge t (F64.ofInt 255) then 255 else F64.truncToNat t else 0 := by
  rw [clampTrunc, gt_f64, ge_f64, ofInt_f64, truncToNat_f64, Config.kLo, Config.kHi]
  rfl

theorem pixel_of_not_gt (h : F64.gt (F64.mul m F64.half) (F64.ofInt 0) = false) : pixel Num.f64 m = 0 := by
  rw [pixel_f64, h, if_neg Bool.false_ne_true]

theorem pixel_of_gt (h : F64.gt (F64.mul m F64.half) (F64.ofInt 0) = true) :
    pixel Num.f64 m = clampTrunc Num.f64 (decibel Num.f64 (F64.mul m F64.half)) := by
  rw [pixel_f64, if_pos h]

theorem clampTrunc_of_not_gt (h : F64.gt t (F64.ofInt 0) = false) : clampTrunc Num.f64 t = 0 := by
  rw [clampTrunc_f64, h, if_neg Bool.false_ne_true]

theorem clampTrunc_of_ge (h : F64.gt t (F64.ofInt 0) = true) (hge : F64.ge t (F64.ofInt 255) = true) :
    clampTrunc Num.f64 t = 255 := by
  rw [clampTrunc_f64, if_pos h, if_pos hge]

theorem clampTrunc_of_not_ge (h : F64.gt t (F64.ofInt 0) = true) (hge : F64.ge t (F64.ofInt 255) = false) :
    clampTrunc Num.f64 t = F64.truncToNat t := by
  rw [clampTrunc_f64, if_pos h, hge, if_neg Bool.false_ne_true]

theorem gt_zero_iff : F64.gt v (F64.ofInt 0) = true ↔ F64.isNaN v = false ∧ 0 < F64.key v := by
  have h0 : F64.isNaN (F64.ofInt 0) = false ∧ F64.key (F64.ofInt 0) = 0 := by decide +kernel
  simp [F64.gt, h0]

theorem realOf_ofInt_255 : realOf (F64.ofInt 255) = 255 := by
  simpa using realOf_of_gridInt (v := F64.ofInt 255) (k := 255) (by decide +kernel)

/-- Below 255 the integer part is at most 254. -/
theorem truncToNat_le_254 (h : F64.gt v (F64.ofInt 0) = true) (hlt : F64.ge v (F64.ofInt 255) = false) :
    F64.truncToNat v ≤ 254 := by
  have hkey : F64.key v < F64.key (F64.ofInt 255) := not_le.1 fun hle =>
    Bool.eq_false_iff.1 hlt ((F64.ge_iff_key_le (gt_zero_iff.1 h).1 (by decide +kernel)).2 hle)
  rw [← realOf_lt_realOf_iff, realOf_ofInt_255] at hkey
  rw [truncToNat_eq_floor (neg_of_gt_zero h)]
  exact Nat.lt_succ_iff.1 ((Nat.floor_lt' (by decide)).2 (by exact_mod_cast hkey))

theorem clampTrunc_le (t : Bits64) : clampTrunc Num.f64 t ≤ 255 := by
  cases h : F64.gt t (F64.ofInt 0) with
  | false => exact (clampTrunc_of_not_gt h).trans_le (Nat.zero_le _)
  | true =>
    cases hge : F64.ge t (F64.ofInt 255) with
    | true => exact (clampTrunc_of_ge h hge).le
    | false => exact (clampTrunc_of_not_ge h hge).trans_le ((truncToNat_le_254 h hge).trans (by decide))

theorem pixel_le (m : Bits64) : pixel Num.f64 m ≤ 255 := by
  cases h : F64.gt (F64.mul m F64.half) (F64.ofInt 0) with
  | false => exact (pixel_of_not_gt h).trans_le (Nat.zero_le _)
  | true => exact (pixel_of_gt h).trans_le (clampTrunc_le _)

/-- Settles O32: each guard leaves 0, 255 or an integer part below 255, and eight bits hold that. -/
theorem pixelsStayInRange : Obligations.PixelsStayInRange := by
  refine ⟨pixel_le, fun m => ?_, fun _ => truncToNat_le_254,
    fun h s h1 hmax hm => ⟨_, exec_scale_of_legal h1 hmax hm, fun y hy => ⟨_, look_scaleBody_pix hy s, ?_⟩⟩⟩
  · exact ⟨_, _, _, _, decibel Num.f64 (F64.mul m F64.half), rfl, rfl, rfl, rfl, decibel_f64 _, pixel_of_not_gt,
      fun h1 h5 => (pixel_of_gt h1).trans (clampTrunc_of_not_gt h5),
      fun h1 h5 hge => (pixel_of_gt h1).trans (clampTrunc_of_ge h5 hge),
      fun h1 h5 hge => (pixel_of_gt h1).trans (clampTrunc_of_not_ge h5 hge)⟩
  · split
    · rfl
    · exact Nat.mod_eq_of_lt (Nat.lt_succ_of_le (pixel_le _))

end Sys2Proof.Machine
end

section
/-! ### Rounding is monotone (R8) -/
namespace Sys2Proof.Machine

/-- Were the nearest magnitudes in the other order, both reals would lie at or beyond the midpoint between them. -/
theorem nearestEven_le_of_lt {y z : ℝ} {n k : Nat} (hy : F64.NearestEven y n) (hz : F64.NearestEven z k) (hlt : y < z) :
    n ≤ k := by
  by_contra hn
  have hg : (F64.magGrid k : ℝ) < F64.magGrid n := Nat.cast_lt.2 (F64.magGrid_strictMono (not_le.1 hn))
  have hny := sq_le_sq.2 (hy k).1
  have hkz := sq_le_sq.2 (hz n).1
  nlinarith [mul_pos (sub_pos.2 hg) (sub_pos.2 hlt)]

theorem roundMag_mono {den : Nat} (hden : 0 < den) {a b : Nat} (hab : a ≤ b) : F64.roundMag a den ≤ F64.roundMag b den := by
  obtain rfl | hlt := hab.eq_or_lt
  · exact le_rfl
  · have hdiv : (a / den : ℝ) < b / den := div_lt_div_of_pos_right (Nat.cast_lt.2 hlt) (Nat.cast_pos.2 hden)
    exact min_le_min_right _ <|
      nearestEven_le_of_lt (F64.roundUnclamped_nearestEven a hden) (F64.roundUnclamped_nearestEven b hden) hdiv

/-- The place in the order of values of the rounding of `v / den` grid units. -/
def roundKey (den : Nat) (v : Int) : Int := signed (decide (v < 0)) (F64.roundMag v.natAbs den : Int)

theorem roundKey_mono {den : Nat} (hden : 0 < den) : Monotone (roundKey den) := fun v w hvw => by
  have hpos := roundMag_mono hden (a := v.natAbs) (b := w.natAbs)
  have hneg := roundMag_mono hden (a := w.natAbs) (b := v.natAbs)
  simp only [roundKey, signed, decide_eq_true_eq]
  split_ifs <;> omega

theorem roundKey_signed (den : Nat) (neg : Bool) (n : Nat) :
    roundKey den (signed neg (n : Int)) = signed neg (F64.roundMag n den : Int) := by
  obtain rfl | hn := Nat.eq_zero_or_pos n
  · cases neg <;> simp [roundKey, signed, roundMag_zero]
  · cases neg <;> simp [roundKey, signed, hn]

theorem key_eq_signed (x : Bits64) : F64.key x = signed (F64.neg x) (F64.mag x : Int) := rfl

theorem gridInt_eq_signed (x : Bits64) : F64.gridInt x = signed (F64.neg x) (F64.grid x : Int) := rfl

theorem gridInt_le_gridInt_iff (a b : Bits64) : F64.gridInt a ≤ F64.gridInt b ↔ F64.key a ≤ F64.key b := by
  rw [← not_lt, gridInt_lt_gridInt_iff, not_lt]

theorem key_round (neg : Bool) (num den : Nat) : F64.key (F64.round neg num den) = roundKey den (signed neg (num : Int)) := by
  rw [key_eq_signed, neg_round, mag_round, roundKey_signed]

theorem isNaN_round (neg : Bool) (num den : Nat) : F64.isNaN (F64.round neg num den) = false := by
  rw [F64.isNaN, mag_round]
  exact decide_eq_false (not_lt.2 (min_le_right _ _))

section Finite
variable {a b : Bits64} (ha : F64.isFinite a = true) (hb : F64.isFinite b = true)
include ha hb

theorem key_mul_of_isFinite : F64.key (F64.mul a b) = roundKey F64.unit (F64.gridInt a * F64.gridInt b) := by
  rw [F64.mul_of_isFinite ha hb, key_round, gridInt_eq_signed, gridInt_eq_signed]
  cases F64.neg a <;> cases F64.neg b <;> simp [signed]

theorem isNaN_mul_of_isFinite : F64.isNaN (F64.mul a b) = false := by
  rw [F64.mul_of_isFinite ha hb, isNaN_round]

theorem key_add_of_isFinite : F64.key (F64.add a b) = roundKey 1 (F64.gridInt a + F64.gridInt b) := by
  have hsum : signed (decide (F64.gridInt a + F64.gridInt b < 0)) ((F64.gridInt a + F64.gridInt b).natAbs : Int) =
      F64.gridInt a + F64.gridInt b := by
    rw [signed]
    split_ifs with h <;> simp only [decide_eq_true_eq] at h <;> omega
  rw [F64.add_of_isFinite ha hb]
  split
  case isTrue h =>
    rw [h, key_eq_signed, F64.isZero_iff.1 (F64.isZero_ofMag_zero _)]
    simp [roundKey, signed, roundMag_zero]
  case isFalse => rw [key_round, hsum]

theorem isNaN_add_of_isFinite : F64.isNaN (F64.add a b) = false := by
  rw [F64.add_of_isFinite ha hb]
  split
  · exact F64.isNaN_of_isFinite (F64.isFinite_of_isZero (F64.isZero_ofMag_zero _))
  · exact isNaN_round _ _ _

end Finite

end Sys2Proof.Machine
end

section
/-! ### The operations of the decibel pipeline are monotone, infinities included (R182) -/
namespace Sys2Proof.Machine

variable {a b c x : Bits64}

theorem isFinite_or_inf (h : F64.isNaN x = false) : F64.isFinite x = true ∨ x = F64.inf ∨ x = F64.negate F64.inf := by
  have hle : F64.mag x ≤ F64.infMag := not_lt.1 (of_decide_eq_false h)
  have hm : F64.mag F64.inf = F64.infMag ∧ F64.neg F64.inf = false := by decide
  obtain hlt | heq := hle.lt_or_eq
  · exact .inl (F64.isFinite_iff.2 hlt)
  · cases hs : F64.neg x with
    | false => exact .inr (.inl (F64.ext (hs.trans hm.2.symm) (heq.trans hm.1.symm)))
    | true => exact .inr (.inr (F64.ext (by rw [hs, F64.neg_negate, hm.2]; rfl) (by rw [heq, F64.mag_negate, hm.1])))

theorem abs_key_le (h : F64.isNaN x = false) : -(F64.infMag : Int) ≤ F64.key x ∧ F64.key x ≤ F64.infMag := by
  rw [← abs_le, F64.abs_key]
  exact_mod_cast not_lt.1 (of_decide_eq_false h)

theorem inf_ge (h : F64.isNaN x = false) : F64.ge F64.inf x = true :=
  (F64.ge_iff_key_le (by decide) h).2 (abs_key_le h).2

theorem ge_neg_inf (h : F64.isNaN x = false) : F64.ge x (F64.negate F64.inf) = true :=
  (F64.ge_iff_key_le h (by decide)).2 (abs_key_le h).1

theorem isNaN_of_ge (h : F64.ge b a = true) : F64.isNaN b = false ∧ F64.isNaN a = false := by
  constructor <;> by_contra hn
  · rw [ge_of_isNaN (.inl (Bool.eq_true_of_not_eq_false hn))] at h
    exact Bool.false_ne_true h
  · rw [ge_of_isNaN (.inr (Bool.eq_true_of_not_eq_false hn))] at h
    exact Bool.false_ne_true h

theorem key_le_of_ge (h : F64.ge b a = true) : F64.key a ≤ F64.key b :=
  (F64.ge_iff_key_le (isNaN_of_ge h).1 (isNaN_of_ge h).2).1 h

/-- A function that keeps the infinities is monotone if it is on the finite numbers. -/
theorem ge_map {f : Bits64 → Bits64} (hinf : f F64.inf = F64.inf) (hneg : f (F64.negate F64.inf) = F64.negate F64.inf)
    (hnan : ∀ x, F64.isFinite x = true → F64.isNaN (f x) = false)
    (hmono : ∀ x y, F64.isFinite x = true → F64.isFinite y = true → F64.key x ≤ F64.key y → F64.key (f x) ≤ F64.key (f y))
    (h : F64.ge b a = true) : F64.ge (f b) (f a) = true := by
  obtain ⟨hb, ha⟩ := isNaN_of_ge h
  have hkey := key_le_of_ge h
  have hm : F64.key (F64.negate F64.inf) = -F64.infMag := by decide
  obtain ha | rfl | rfl := isFinite_or_inf ha
  · obtain hb | rfl | rfl := isFinite_or_inf hb
    · exact (F64.ge_iff_key_le (hnan b hb) (hnan a ha)).2 (hmono a b ha hb hkey)
    · exact hinf.symm ▸ inf_ge (hnan a ha)
    · exact absurd ((F64.key_lt_infMag ha).1.trans_le hkey) (by rw [hm]; exact lt_irrefl _)
  · rw [Config.eq_inf_of_ge b h, hinf]
    decide
  · rw [hneg]
    obtain hb | rfl | rfl := isFinite_or_inf hb
    · exact ge_neg_inf (hnan b hb)
    · rw [hinf]; decide
    · rw [hneg]; decide

theorem isZero_of_gt_zero (h : F64.gt c (F64.ofInt 0) = true) : F64.isZero c = false := by
  have hpos := abs_pos.2 (gt_zero_iff.1 h).2.ne'
  rw [F64.abs_key] at hpos
  exact decide_eq_false (by omega)

/-- Multiplication by a positive finite number is monotone. -/
theorem ge_mul_left (hc : F64.isFinite c = true) (hpos : F64.gt c (F64.ofInt 0) = true) (h : F64.ge b a = true) :
    F64.ge (F64.mul c b) (F64.mul c a) = true := by
  have hs := neg_of_gt_zero hpos
  have hinf : ∀ x, F64.isInf x = true → F64.mul c x = x := fun x hx => by
    rw [F64.mul_comm, F64.inf_mul hx (F64.isNaN_of_isFinite hc), isZero_of_gt_zero hpos, hs, Bool.bne_false, ← F64.isInf_iff.1 hx]
    exact F64.ofMag_neg_mag x
  refine ge_map (hinf _ (by decide)) (hinf _ (by decide)) (fun x hx => isNaN_mul_of_isFinite hc hx) (fun x y hx hy hxy => ?_) h
  have hgrid : 0 ≤ F64.gridInt c := by
    rw [gridInt_eq_signed, hs]
    exact Int.natCast_nonneg _
  rw [key_mul_of_isFinite hc hx, key_mul_of_isFinite hc hy]
  exact roundKey_mono F64.unit_pos (mul_le_mul_of_nonneg_left ((gridInt_le_gridInt_iff x y).2 hxy) hgrid)

theorem ge_mul_right (hc : F64.isFinite c = true) (hpos : F64.gt c (F64.ofInt 0) = true) (h : F64.ge b a = true) :
    F64.ge (F64.mul b c) (F64.mul a c) = true := by
  rw [F64.mul_comm b, F64.mul_comm a]
  exact ge_mul_left hc hpos h

/-- Taking off a finite number is monotone. -/
theorem ge_sub_right (hc : F64.isFinite c = true) (h : F64.ge b a = true) : F64.ge (F64.sub b c) (F64.sub a c) = true := by
  have hc' : F64.isFinite (F64.negate c) = true := (F64.isFinite_negate c).trans hc
  refine ge_map (f := (F64.sub · c)) (F64.inf_add_of_isFinite (by decide) hc') (F64.inf_add_of_isFinite (by decide) hc')
    (fun x hx => isNaN_add_of_isFinite hx hc') (fun x y hx hy hxy => ?_) h
  simp only [F64.sub, key_add_of_isFinite hx hc', key_add_of_isFinite hy hc']
  exact roundKey_mono one_pos (Int.add_le_add_right ((gridInt_le_gridInt_iff x y).2 hxy) _)

theorem gt_zero_of_ge (h : F64.ge b a = true) (ha : F64.gt a (F64.ofInt 0) = true) : F64.gt b (F64.ofInt 0) = true :=
  gt_zero_iff.2 ⟨(isNaN_of_ge h).1, (gt_zero_iff.1 ha).2.trans_le (key_le_of_ge h)⟩

theorem ge_trans {d : Bits64} (h : F64.ge b a = true) (ha : F64.ge a d = true) : F64.ge b d = true :=
  (F64.ge_iff_key_le (isNaN_of_ge h).1 (isNaN_of_ge ha).2).2 ((key_le_of_ge ha).trans (key_le_of_ge h))

/-- `P-LOG-MONO` (R9) carried through the three roundings. -/
theorem ge_decibel (ha : F64.gt a (F64.ofInt 0) = true) (h : F64.ge b a = true) :
    F64.ge (decibel Num.f64 b) (decibel Num.f64 a) = true := by
  have h0 : F64.ofInt 0 = F64.zero := by decide +kernel
  have hlog := Config.math.logMono a b (h0 ▸ ha) h
  have hten := ge_mul_left (c := F64.ofInt 10) (by decide +kernel) (by decide +kernel) hlog
  have hgain := ge_mul_right (c := F64.ofInt 4) (by decide +kernel) (by decide +kernel) hten
  rw [decibel_f64, decibel_f64]
  exact ge_sub_right (by decide +kernel) hgain

theorem truncToNat_mono (ha : F64.gt a (F64.ofInt 0) = true) (h : F64.ge b a = true) : F64.truncToNat a ≤ F64.truncToNat b := by
  rw [truncToNat_eq_floor (neg_of_gt_zero ha), truncToNat_eq_floor (neg_of_gt_zero (gt_zero_of_ge h ha))]
  exact Nat.floor_mono ((realOf_le_realOf_iff a b).2 (key_le_of_ge h))

theorem clampTrunc_mono (h : F64.ge b a = true) : clampTrunc Num.f64 a ≤ clampTrunc Num.f64 b := by
  cases ha : F64.gt a (F64.ofInt 0) with
  | false => exact (clampTrunc_of_not_gt ha).trans_le (Nat.zero_le _)
  | true =>
    have hb := gt_zero_of_ge h ha
    cases hb255 : F64.ge b (F64.ofInt 255) with
    | true => exact (clampTrunc_le a).trans_eq (clampTrunc_of_ge hb hb255).symm
    | false =>
      have ha255 : F64.ge a (F64.ofInt 255) = false :=
        Bool.eq_false_iff.2 fun hge => Bool.eq_false_iff.1 hb255 (ge_trans h hge)
      rw [clampTrunc_of_not_ge ha ha255, clampTrunc_of_not_ge hb hb255]
      exact truncToNat_mono ha h

/-- Settles O35: every step of the pipeline is monotone from a positive operand on, and without one the smaller pixel is 0. -/
theorem pixelIsMonotone : Obligations.PixelIsMonotone := fun a b h => by
  have hhalf := ge_mul_right (c := F64.half) (by decide) (by decide +kernel) h
  cases ha : F64.gt (F64.mul a F64.half) (F64.ofInt 0) with
  | false => exact (pixel_of_not_gt ha).trans_le (Nat.zero_le _)
  | true =>
    rw [pixel_of_gt ha, pixel_of_gt (gt_zero_of_ge hhalf ha)]
    exact clampTrunc_mono (ge_decibel ha hhalf)

end Sys2Proof.Machine
end

section
/-! ### Degenerate magnitudes (R184) -/
namespace Sys2Proof.Machine

variable {m : Bits64}

theorem pixel_of_isNaN (h : F64.isNaN m = true) : pixel Num.f64 m = 0 :=
  pixel_of_not_gt (gt_of_isNaN (.inl (by rw [F64.mul_eq_qNaN (.inl h), F64.isNaN_qNaN])))

theorem pixel_zero : pixel Num.f64 F64.zero = 0 := pixel_of_not_gt (by decide +kernel)

/-- A magnitude at or below 0 has no larger pixel than 0 has. -/
theorem pixel_of_key_nonpos (hn : F64.isNaN m = false) (h : F64.key m ≤ 0) : pixel Num.f64 m = 0 := by
  have hge : F64.ge F64.zero m = true := (F64.ge_iff_key_le (by decide) hn).2 h
  exact Nat.le_zero.1 ((pixelIsMonotone m F64.zero hge).trans_eq pixel_zero)

theorem key_nonpos (h : F64.isZero m = true ∨ F64.neg m = true) : F64.key m ≤ 0 := by
  obtain hz | hs := h
  · exact (abs_nonpos_iff.1 (by rw [F64.abs_key, F64.isZero_iff.1 hz, Nat.cast_zero])).le
  · rw [key_eq_signed, hs]
    exact neg_nonpos.2 (Int.natCast_nonneg _)

/-- `P-LOG-POS` (R9): the logarithm of +infinity is +infinity, and so is its decibel value. -/
theorem pixel_inf : pixel Num.f64 F64.inf = 255 := by
  have hhalf : F64.mul F64.inf F64.half = F64.inf := by decide +kernel
  have hdb : decibel Num.f64 F64.inf = F64.inf := by
    rw [decibel_f64, Config.math.logInf]
    decide +kernel
  rw [pixel_of_gt (by decide +kernel), hhalf, hdb]
  exact clampTrunc_of_ge (by decide +kernel) (by decide +kernel)

/-- Settles O34: NaNs stop at the first guard, the numbers up to 0 by monotony, the smallest subnormal because its half rounds to 0. -/
theorem degenerateMagnitudesSaturate : Obligations.DegenerateMagnitudesSaturate := by
  refine ⟨fun m h => ?_, pixel_of_not_gt (by decide +kernel), pixel_inf⟩
  cases hn : F64.isNaN m with
  | true => exact pixel_of_isNaN hn
  | false => exact pixel_of_key_nonpos hn (key_nonpos (by simpa [hn] using h))

end Sys2Proof.Machine
end

section
/-! ### The thresholds of the pixel values in exact real numbers (R185) -/
namespace Sys2Proof.Machine

theorem clampTrunc_real (t : ℝ) : clampTrunc Num.real t = if 0 < t then if 255 ≤ t then 255 else ⌊t⌋₊ else 0 := by
  simp [clampTrunc, Num.real, Config.kLo, Config.kHi]

theorem decibel_real (t : ℝ) : decibel Num.real t = 40 * Real.logb 10 t - 43 := by
  simp only [decibel, Num.real, Config.kTen, Config.kGain, Config.kOffs]
  push_cast
  ring

theorem pixel_real (m : ℝ) : pixel Num.real m = if 0 < m / 2 then clampTrunc Num.real (decibel Num.real (m / 2)) else 0 := by
  simp [pixel, Num.real, div_eq_mul_inv]

theorem le_decibel_real_iff {t : ℝ} (ht : 0 < t) (x : ℝ) : x ≤ decibel Num.real t ↔ (10 : ℝ) ^ ((43 + x) / 40) ≤ t := by
  rw [decibel_real, ← Real.le_logb_iff_rpow_le (by norm_num) ht]
  constructor <;> intro h <;> linarith

section Threshold
variable {q : Nat} (h1 : 1 ≤ q) (hq : q ≤ 255)
include h1 hq

/-- The clamp and the truncation move no value across an integer in [1, 255]. -/
theorem le_clampTrunc_real_iff (t : ℝ) : q ≤ clampTrunc Num.real t ↔ (q : ℝ) ≤ t := by
  have h1' : (1 : ℝ) ≤ q := by exact_mod_cast h1
  have hq' : (q : ℝ) ≤ 255 := by exact_mod_cast hq
  rw [clampTrunc_real]
  split_ifs with h0 h255
  · exact iff_of_true hq (hq'.trans h255)
  · exact Nat.le_floor_iff h0.le
  · exact iff_of_false (by omega) (by linarith)

/-- Where a pixel value begins. -/
theorem le_pixel_real_iff (m : ℝ) : q ≤ pixel Num.real m ↔ 2 * (10 : ℝ) ^ ((43 + q) / 40 : ℝ) ≤ m := by
  rw [pixel_real, ← le_div_iff₀' two_pos]
  split_ifs with hm
  · rw [le_clampTrunc_real_iff h1 hq, le_decibel_real_iff hm]
  · exact iff_of_false (by omega) fun hle => hm ((Real.rpow_pos_of_pos (by norm_num) _).trans_le hle)

end Threshold

theorem clampTrunc_real_le (t : ℝ) : clampTrunc Num.real t ≤ 255 := by
  rw [clampTrunc_real]
  split_ifs with h0 h255
  · exact le_rfl
  · exact Nat.floor_le_of_le (by exact_mod_cast (not_le.1 h255).le)
  · exact Nat.zero_le _

theorem pixel_real_le (m : ℝ) : pixel Num.real m ≤ 255 := by
  rw [pixel_real]
  split_ifs
  · exact clampTrunc_real_le _
  · exact Nat.zero_le _

/-- Settles O33: every value from 1 to 255 has one threshold, and a pixel is the last one whose threshold the magnitude reaches. -/
theorem pixelThresholdsInTheReals : Obligations.PixelThresholdsInTheReals := by
  refine ⟨fun m => ?_, fun m => ?_, fun m p h1 hp => ?_, pixel_real_le⟩
  · rw [le_pixel_real_iff le_rfl (by decide)]
    norm_num
  · rw [← (pixel_real_le m).ge_iff_eq, le_pixel_real_iff (by decide) le_rfl]
    norm_num
  · have hnext : ((44 + p) / 40 : ℝ) = (43 + (p + 1 : ℕ)) / 40 := by push_cast; ring
    rw [hnext, ← not_le, ← le_pixel_real_iff h1 (by omega), ← le_pixel_real_iff (Nat.le_add_left 1 p) (by omega)]
    omega

end Sys2Proof.Machine
end

section
/-! ### How far a rounding can be from the real result (R8) -/
namespace Sys2Proof.Machine

/-- The gap above a magnitude is one grid unit among the subnormals, and at most its `2^52`-th part from there on. -/
theorem two_pow_gap_le (m : Nat) : 2 ^ (m / 2 ^ 52 - 1) * 2 ^ 52 ≤ F64.magGrid m + 2 ^ 52 := by
  rw [F64.magGrid]
  split_ifs with h
  · rw [h]
    omega
  · rw [mul_comm]
    exact (Nat.mul_le_mul_right _ (Nat.le_add_right _ _)).trans (Nat.le_add_right _ _)

theorem exists_magGrid_floor {y : ℝ} (hy : 0 ≤ y) : ∃ m, (F64.magGrid m : ℝ) ≤ y ∧ y < F64.magGrid (m + 1) := by
  classical
  have hex : ∃ m, y < F64.magGrid m :=
    ⟨_, (Nat.lt_floor_add_one y).trans_le (by exact_mod_cast F64.magGrid_strictMono.le_apply)⟩
  obtain ⟨m, hm⟩ : ∃ m, Nat.find hex = m + 1 := Nat.exists_eq_succ_of_ne_zero fun h0 => by
    have hlt := Nat.find_spec hex
    rw [h0, F64.magGrid_zero, Nat.cast_zero] at hlt
    exact hlt.not_ge hy
  exact ⟨m, not_lt.1 (Nat.find_min hex (by omega)), hm ▸ Nat.find_spec hex⟩

/-- The magnitudes up to `2^64` are finite. -/
theorem lt_infMag_of_magGrid_le {r : ℝ} {m : Nat} (hr : r ≤ 2 ^ 64) (h : (F64.magGrid m : ℝ) ≤ r * 2 ^ 1074) : m < F64.infMag := by
  have hlt : (F64.magGrid m : ℝ) < F64.magGrid F64.infMag := by
    calc (F64.magGrid m : ℝ) ≤ r * 2 ^ 1074 := h
      _ ≤ 2 ^ 64 * 2 ^ 1074 := mul_le_mul_of_nonneg_right hr (by positivity)
      _ = 2 ^ 1138 := (pow_add 2 64 1074).symm
      _ < 2 ^ 2098 := pow_lt_pow_right₀ one_lt_two (by decide)
      _ = F64.magGrid F64.infMag := by rw [F64.magGrid_infMag, ← pow_add, Nat.cast_pow, Nat.cast_ofNat]
  exact F64.magGrid_strictMono.lt_iff_lt.1 (Nat.cast_lt.1 hlt)

/-- The number just below a real one is close to it. -/
theorem exists_isFinite_near {r : ℝ} (h0 : 0 ≤ r) (hr : r ≤ 2 ^ 64) :
    ∃ w, F64.isFinite w = true ∧ |realOf w - r| ≤ (r + 1) / 2 ^ 52 := by
  obtain ⟨m, hlo, hhi⟩ := exists_magGrid_floor (mul_nonneg h0 (by positivity : (0 : ℝ) ≤ 2 ^ 1074))
  have hinf := lt_infMag_of_magGrid_le hr hlo
  have hm : m < 2 ^ 63 := hinf.trans (by decide)
  have hw : realOf (F64.ofMag false m) = (F64.magGrid m : ℝ) / 2 ^ 1074 := realOf_ofMag false hm
  have hgap : (2 : ℝ) ^ (m / 2 ^ 52 - 1) * 2 ^ 52 ≤ F64.magGrid m + 2 ^ 52 := by exact_mod_cast two_pow_gap_le m
  rw [F64.magGrid_succ, Nat.cast_add, Nat.cast_pow, Nat.cast_ofNat] at hhi
  refine ⟨F64.ofMag false m, F64.isFinite_iff.2 ((F64.mag_ofMag false hm).trans_lt hinf), ?_⟩
  have hU : (2 : ℝ) ^ 52 ≤ 2 ^ 1074 := pow_le_pow_right₀ one_le_two (by decide)
  generalize (2 : ℝ) ^ 1074 = U at hlo hhi hw hU
  have hpos : 0 < U := lt_of_lt_of_le (by positivity) hU
  have hle : (F64.magGrid m : ℝ) / U ≤ r := (div_le_iff₀ hpos).2 hlo
  have hge : r - (r + 1) / 2 ^ 52 ≤ (F64.magGrid m : ℝ) / U := (le_div_iff₀ hpos).2 (by linarith)
  rw [hw, abs_sub_comm, abs_of_nonneg (sub_nonneg.2 hle)]
  linarith

/-- A rounding is within a `2^52`-th part of the real result, with 1 added to it for the subnormals. -/
theorem RoundsTo.abs_sub_le {r : ℝ} {v : Bits64} (h : RoundsTo r v) (h0 : 0 ≤ r) (hr : r ≤ 2 ^ 64) :
    F64.isFinite v = true ∧ |realOf v - r| ≤ (r + 1) / 2 ^ 52 := by
  obtain ⟨hv, hn⟩ := h.nearest (lt_overflow_of_le ((abs_of_nonneg h0).trans_le hr))
  obtain ⟨w, hw, hnear⟩ := exists_isFinite_near h0 hr
  exact ⟨hv, (hn w hw).1.trans hnear⟩

theorem realOf_nonneg {v : Bits64} (h : F64.neg v = false) : 0 ≤ realOf v := by
  rw [realOf_eq_signed_div, h]
  exact div_nonneg (Nat.cast_nonneg _) (by positivity)

end Sys2Proof.Machine
end

section
/-! ### The palette ROM and its lookup (43_palette R202, R204) -/
namespace Sys2Proof.Machine

/-- The green channel, with the constants of R202. -/
theorem paletteGreen_eq (i : Nat) : paletteGreen i = if i ≤ 100 then 0 else (i - 100) * 255 / 156 := rfl

/-- The bound 253 is the green channel of entry 255. -/
theorem paletteGreen_le {i : Nat} (h : i ≤ 255) : paletteGreen i ≤ 253 := by
  rw [paletteGreen_eq]
  split_ifs <;> omega

theorem prom_red (i : Intensity) : (prom i).extractLsb' 16 8 = i :=
  (BitVec.extractLsb'_append_eq_of_le (by decide)).trans BitVec.extractLsb'_append_eq_left

theorem prom_green (i : Intensity) : (prom i).extractLsb' 8 8 = BitVec.ofNat 8 (paletteGreen i.toNat) :=
  (BitVec.extractLsb'_append_eq_of_le le_rfl).trans BitVec.extractLsb'_append_eq_right

theorem prom_blue (i : Intensity) : (prom i).extractLsb' 0 8 = BitVec.ofNat 8 (paletteGreen i.toNat) :=
  BitVec.extractLsb'_append_eq_right

theorem toNat_prom_green (i : Intensity) : ((prom i).extractLsb' 8 8).toNat = paletteGreen i.toNat := by
  have hle : paletteGreen i.toNat ≤ 253 := paletteGreen_le (Nat.le_of_lt_succ i.isLt)
  rw [prom_green, BitVec.toNat_ofNat, Nat.mod_eq_of_lt (by omega)]

/-- Up to 256 a rounding is off by at most `2^-40`. -/
theorem RoundsTo.abs_sub_le_of_le_256 {r : ℝ} {v : Bits64} (h : RoundsTo r v) (h0 : 0 ≤ r) (hr : r ≤ 256) :
    F64.isFinite v = true ∧ |realOf v - r| ≤ 1 / 2 ^ 40 := by
  obtain ⟨hv, hle⟩ := h.abs_sub_le h0 (hr.trans (by norm_num))
  exact ⟨hv, by linarith⟩

theorem realOf_ofInt_156 : realOf (F64.ofInt 156) = 156 := by
  simpa using realOf_of_gridInt (v := F64.ofInt 156) (k := 156) (by decide +kernel)

/-- The formula of R202 in binary64, in the order R202 gives, by the distance `n` from the knee. -/
def greenF64 (n : Nat) : Bits64 := F64.mul (F64.div (F64.ofInt n) (F64.ofInt 156)) (F64.ofInt 255)

/-- The quotient after its two roundings. -/
theorem greenQuotient_near {n : Nat} (h : n < 156) :
    F64.isFinite (F64.div (F64.ofInt n) (F64.ofInt 156)) = true ∧ F64.neg (F64.div (F64.ofInt n) (F64.ofInt 156)) = false ∧
      |realOf (F64.div (F64.ofInt n) (F64.ofInt 156)) - n / 156| ≤ 1 / 2 ^ 39 := by
  have hn : (n : ℝ) ≤ 155 := by exact_mod_cast Nat.le_of_lt_succ h
  have h156 : F64.isFinite (F64.ofInt 156) = true := (ofInt_bounds (k := 156) (by decide)).1
  have hz : F64.isZero (F64.ofInt 156) = false := isZero_ofInt_eq_false (n := 156) (by decide) (by decide)
  have hsign := neg_ofInt_natCast n
  have hround := roundsTo_ofInt n
  rw [Int.cast_natCast] at hround
  obtain ⟨hfin, herr⟩ := hround.abs_sub_le_of_le_256 (Nat.cast_nonneg n) (by linarith)
  obtain ⟨herr1, herr2⟩ := abs_le.1 herr
  have hquot := roundsTo_div hfin h156 hz
  rw [realOf_ofInt_156] at hquot
  obtain ⟨hqfin, hqerr⟩ := hquot.abs_sub_le_of_le_256 (div_nonneg (realOf_nonneg hsign) (by norm_num)) (by linarith)
  obtain ⟨hqerr1, hqerr2⟩ := abs_le.1 hqerr
  refine ⟨hqfin, ?_, abs_le.2 ⟨by linarith, by linarith⟩⟩
  rw [neg_div_of_isFinite hfin h156 hz, hsign, neg_ofInt]
  rfl

/-- The three roundings together move the exact value by less than a 52nd. -/
theorem greenF64_near {n : Nat} (h : n < 156) :
    F64.neg (greenF64 n) = false ∧ |realOf (greenF64 n) - n * 255 / 156| < 1 / 52 := by
  have hn : (n : ℝ) ≤ 155 := by exact_mod_cast Nat.le_of_lt_succ h
  have h255 : F64.isFinite (F64.ofInt 255) = true := (ofInt_bounds (k := 255) (by decide)).1
  obtain ⟨hqfin, hqsign, hqerr⟩ := greenQuotient_near h
  obtain ⟨hqerr1, hqerr2⟩ := abs_le.1 hqerr
  have hround := roundsTo_mul hqfin h255
  rw [realOf_ofInt_255] at hround
  obtain ⟨-, herr⟩ := hround.abs_sub_le_of_le_256 (mul_nonneg (realOf_nonneg hqsign) (by norm_num)) (by linarith)
  obtain ⟨herr1, herr2⟩ := abs_le.1 herr
  rw [greenF64]
  refine ⟨?_, abs_lt.2 ⟨by linarith, by linarith⟩⟩
  rw [neg_mul_of_isFinite hqfin h255, hqsign, neg_ofInt]
  rfl

/-- Where 52 does not divide `n` the exact value is at least a 52nd away from an integer, so the roundings cannot reach one. Where it does
the exact value is an integer, and whether the roundings fall below it is computed. -/
theorem truncToNat_greenF64 {n : Nat} (h : n < 156) : F64.truncToNat (greenF64 n) = n * 255 / 156 := by
  by_cases h52 : 52 ∣ n
  · have hint : ∀ k < 3, F64.truncToNat (greenF64 (52 * k)) = 52 * k * 255 / 156 := by decide +kernel
    obtain ⟨k, rfl⟩ := h52
    exact hint k (by omega)
  · obtain ⟨hsign, hnear⟩ := greenF64_near h
    obtain ⟨hlow, hhigh⟩ := abs_lt.1 hnear
    have hfloor : 156 * (n * 255 / 156) + 3 ≤ n * 255 ∧ n * 255 + 3 ≤ 156 * (n * 255 / 156 + 1) := by omega
    rw [truncToNat_eq_floor hsign, Nat.floor_eq_iff (realOf_nonneg hsign)]
    generalize n * 255 / 156 = k at hfloor ⊢
    have hk : 156 * (k : ℝ) + 3 ≤ n * 255 ∧ (n : ℝ) * 255 + 3 ≤ 156 * (k + 1) := by exact_mod_cast hfloor
    constructor <;> linarith

/-- Settles O36: the three channels are cut out of an entry, and the binary64 formula is that of the distance from the knee. -/
theorem paletteContents : Obligations.PaletteContents := fun i => by
  have hgreen := toNat_prom_green i
  have hlt : i.toNat < 256 := i.isLt
  refine ⟨prom_red i, hgreen.trans (paletteGreen_eq _), (prom_blue i).trans (prom_green i).symm,
    hgreen.trans_le (paletteGreen_le (by omega)), fun h => ?_⟩
  have hsub : (i.toNat : Int) - 100 = (i.toNat - 100 : Nat) := by omega
  rw [hsub]
  exact truncToNat_greenF64 (by omega)

/-- Settles O37: an index below the bound names an entry of `PROM` or `COL`, a read step is `step_of_read`, and the two regions are among
those that refuse writes. -/
theorem paletteLookupIsARead : Obligations.PaletteLookupIsARead := by
  refine ⟨fun s i hi => ?_, fun s y hy => ?_, fun s a rest h => step_of_read h, fun s a d hlo hhi => ?_⟩
  · rw [hostRead, cellOf_prom_index hi, readCell, cellOfColor]
  · rw [hostRead, cellOf_col_index hy, readCell, cellOfColor]
  · exact writeCell_of_writeRefused (writeRefused_cellOf d (.inl ⟨hlo, by omega⟩)) s

end Sys2Proof.Machine
end

section
/-! ### A write to `CMD`: halted, or of a word that decodes (R221) -/
namespace Sys2Proof.Machine

variable {s t : State} {d : Cell}

theorem hostWrite_of_err (hs : s.err = true) (d : Cell) : hostWrite cmdAddr d s = .next (s, .err) := by
  rw [hostWrite_cmdAddr, cmdWrite_of_err hs]

theorem hostWrite_of_exec {i : Instr} (hs : s.err = false) (hd : decode d = .ok i) (ht : exec i s = .next t) :
    hostWrite cmdAddr d s = .next (t, cmdResp t) := by
  rw [hostWrite_cmdAddr]
  exact cmdWrite_next.2 (.inr (.inr ⟨hs, i, t, hd, ht, rfl⟩))

theorem cmdResp_of_not_err (ht : t.err = false) : cmdResp t = .ok := by simp [cmdResp, ht]

/-- Settles O7: a command that decodes keeps the record or latches a fault, with its own word, which is `d`. -/
theorem commandDispatch : Obligations.CommandDispatch := by
  refine fun s d => ⟨fun hs => hostWrite_of_err hs d, hostWrite_illegal, fun hs i hd => ?_⟩
  obtain ⟨t, ht⟩ := exec_total i s
  have hw := hostWrite_of_exec hs hd ht
  refine ⟨t, ht, ?_⟩
  obtain hr | ⟨c, rfl⟩ := exec_record ht
  · have he : t.err = false := hr.err.trans hs
    rw [cmdResp_of_not_err he] at hw
    exact .inl ⟨he, hw⟩
  · rw [cmdData_of_decode hd] at hw ⊢
    exact .inr ⟨faultCode c, rfl, hw⟩

theorem hostWrite_nop (s : State) : hostWrite cmdAddr 0#64 s = .next (s, cmdResp s) := by
  cases hs : s.err with
  | true => rw [hostWrite_of_err hs, cmdResp, if_pos hs]
  | false => exact hostWrite_of_exec hs (decode_eq_nop_iff.2 rfl) rfl

/-- Settles O13: `NOP` answers the state it is given, so its write answers by the flag alone. -/
theorem nopDoesNothing : Obligations.NopDoesNothing :=
  ⟨fun _ => rfl, decode_eq_nop_iff.2 rfl, hostWrite_nop, hostWrite_nop State.reset, rfl, rfl, rfl⟩

end Sys2Proof.Machine
end

section
/-! ### The step that makes a write to `CMD` (R62, R220) -/
namespace Sys2Proof.Machine

variable {s t : State} {i : Instr}

theorem step_of_exec {d : Cell} {rest : List Txn} (hp : s.port = .write cmdAddr d :: rest) (hs : s.err = false)
    (hd : decode d = .ok i) (ht : exec i (s.setPort rest) = .next t) : step s = .next (t.complete (some (cmdResp t))) := by
  rw [step_of_port_cons hp]
  exact runTxn_write_next.2 ⟨_, hostWrite_of_exec (s := s.setPort rest) hs hd ht, rfl⟩

theorem decode_of_decodeTableWord {nbits w : Nat} (h : decodeTableWord nbits w = some i) :
    decode (BitVec.ofNat 64 (w % 2 ^ nbits)) = .ok i := by
  unfold decodeTableWord at h
  split at h
  · split at h
    case h_1 hd => exact hd.trans (congrArg _ (Option.some.inj h))
    case h_2 => cases h
  · cases h

/-- Settles O6: the step takes the write off the port, runs the command and answers it; `withFetchWord` puts the write before what the
port held, so that taking it off gives the state back. -/
theorem stepRunsTheDecodedCommand : Obligations.StepRunsTheDecodedCommand := by
  refine ⟨fun s d rest i hp hs hd => ?_, fun s nbits w i hs hw => ?_⟩
  · obtain ⟨t, ht⟩ := exec_total i (s.setPort rest)
    exact ⟨t, ht, step_of_exec hp hs hd ht⟩
  · obtain ⟨t, ht⟩ := exec_total i s
    exact ⟨t, ht, step_of_exec (s := s.withFetchWord nbits w) (rest := s.port) rfl hs (decode_of_decodeTableWord hw) ht⟩

end Sys2Proof.Machine
end

section
/-! ### `FRAME` is its three commands (R223) -/
namespace Sys2Proof.Machine

theorem CacheAfter.twlen_eq {n : Nat} {s t : State} (h : CacheAfter n s t) (hn : 2 ≤ n) : t.twlen = n := by
  by_cases hkey : s.twlen = n
  · exact (h.reused (.inr hkey)).1.trans hkey
  · exact (h.rebuilt hn hkey).1

theorem frameBody_twlen (s : State) : s.frameBody.twlen = 2048 := (cacheAfter_frameBody s).twlen_eq (by decide)

/-- Settles O38: the lengths of the first two commands are legal, and `MAG` leaves an `MLEN` that allows the height of the third. -/
theorem frameIsThreeCommands : Obligations.FrameIsThreeCommands := by
  refine ⟨rfl, fun s => ⟨_, _, _, exec_win_nMax s, exec_mag_of_legal (by decide) _, exec_scale_of_legal (by decide) le_rfl ?_, rfl,
    s.frameBody_mlen, frameBody_twlen s, ⟨s.frameBody_smp, s.frameBody_port, s.frameBody_resps, s.frameBody_draw⟩,
    ⟨s.frameBody_err, s.frameBody_errCode, s.frameBody_errInfo⟩⟩⟩
  rw [State.magBody_mlen]
  decide

end Sys2Proof.Machine
end

section
/-! ### A frame of zeros (R223, E4) -/
namespace Sys2Proof.Machine

theorem magnitude_of_isZeroCx {z : Cx Bits64} (h : IsZeroCx z) : magnitude Num.f64 z = F64.zero := by
  obtain ⟨hre, him⟩ := h
  have hval : F64.sqrt (F64.add F64.zero F64.zero) = F64.zero := by decide +kernel
  rw [← hval]
  exact congrArg F64.sqrt (congrArg₂ F64.add (mul_self_of_isZero hre) (mul_self_of_isZero him))

section Transform
variable {n : Nat} {s : State} (hn : n ∈ legalLengths) (hs : TablesMatch s)
include hn hs

/-- The table a transform reads is finite (R39 (I2), R143). -/
theorem isFiniteCx_fftrBody_twiddle {k : Nat} (hk : k < n / 2) : IsFiniteCx ((s.fftrBody n).twiddle k) := by
  rw [State.fftrBody_twiddle, State.cachePrepare_twiddle hs (by omega) hk]
  exact isFiniteCx_twTable hn hk

variable (h0 : ∀ i, i < n → F64.isZero (s.rdXr i) = true) {k : Nat} (hk : k < n)
include h0 hk

theorem isZeroCx_fftrBody : ∃ z, IsZeroCx z ∧ (s.fftrBody n).xr.look k = some z.re ∧ (s.fftrBody n).xi.look k = some z.im := by
  obtain ⟨z, v, w, hz, hv, hw, hvs, hws, -⟩ := (transformStored_fftrBody hn s).values k hk
  have hzero : IsZeroCx z := by
    obtain ⟨b, -, rfl⟩ := exists_pow_of_legal hn
    rw [Nat.log2_two_pow] at hz
    refine isZeroCx_fftRec (fun j hj => isFiniteCx_fftrBody_twiddle hn hs hj) le_rfl (by simp) (fun _ x hx => ?_) hz
    obtain ⟨m, hm, rfl⟩ := List.mem_map.1 (List.mem_of_getElem? hx)
    exact ⟨h0 m (List.mem_range.1 hm), F64.isZero_ofMag_zero false⟩
  obtain rfl := hvs.eq_of_not_isNaN (F64.isNaN_of_isFinite (F64.isFinite_of_isZero hzero.1))
  obtain rfl := hws.eq_of_not_isNaN (F64.isNaN_of_isFinite (F64.isFinite_of_isZero hzero.2))
  exact ⟨z, hzero, hv, hw⟩

theorem look_magBody_mag_of_isZero : (s.magBody n).mag.look k = some F64.zero := by
  obtain ⟨z, hz, hr, hi⟩ := isZeroCx_fftrBody hn hs h0 hk
  have hmag : magnitude Num.f64 ⟨(s.fftrBody n).rdXr k, (s.fftrBody n).rdXi k⟩ = F64.zero :=
    magnitude_of_isZeroCx (by simpa [State.rdXr, State.rdXi, hr, hi] using hz)
  rw [look_magBody_mag, if_pos hk, hmag]
  rfl

end Transform

/-- A tagged entry is +0, and a product of the sample 0 is a zero (R123, R124). -/
theorem isZero_winBody_rdXr {s : State} {i : Nat} (hi : i < 2048) (h : (s.rdSmp i).nn = true ∨ (s.rdSmp i).v = 0#32) :
    F64.isZero (s.winBody.rdXr i) = true := by
  obtain ⟨t, ht, -, hcells⟩ := winCornerCases s
  obtain rfl := Host.Outcome.next.inj ((exec_win_nMax s).symm.trans ht)
  obtain ⟨v, hv, -, -, htagged, hzero, -⟩ := hcells i hi
  rw [State.rdXr, hv, Option.getD_some]
  cases hnn : (s.rdSmp i).nn with
  | true => rw [htagged hnn]; decide
  | false => exact hzero (h.resolve_left (by simp [hnn]))

/-- A row of a column of zeros: row 0 is cleared, and the pixel of the magnitude 0 is 0 (R181, R182). -/
theorem look_scaleBody_pix_of_zero {s : State} {h y : Nat} (hm : ∀ i, i < h → s.mag.look i = some F64.zero) (hy : y < h) :
    (s.scaleBody h).pix.look y = some 0#8 := by
  rw [look_scaleBody_pix hy]
  split
  case isTrue => rfl
  case isFalse h0 => simp [State.rdMag, hm (h - y) (by omega), pixel_zero]

/-- Settles O39: the window of a silent frame is zeros, so is their transform with a finite table, and so on to the pixels. -/
theorem silentFrameGivesABlackColumn : Obligations.SilentFrameGivesABlackColumn := by
  intro s hs hsilent
  have hn : Config.nMax ∈ legalLengths := by decide
  have hwin : TablesMatch s.winBody := hs.of_sameCache (sameCache_of_win (exec_win_nMax s))
  have hxr : ∀ i, i < Config.nMax → F64.isZero (s.winBody.rdXr i) = true := fun i hi => isZero_winBody_rdXr hi (hsilent i hi)
  have hmag : ∀ i, i < Config.nMax → (s.winBody.magBody Config.nMax).mag.look i = some F64.zero := fun i hi =>
    look_magBody_mag_of_isZero hn hwin hxr hi
  refine ⟨_, rfl, fun i hi => ?_, fun y hy => look_scaleBody_pix_of_zero (fun i hi => hmag i (hi.trans (by decide))) hy⟩
  obtain ⟨z, ⟨hz, -⟩, hr, -⟩ := isZeroCx_fftrBody hn hwin hxr hi
  exact ⟨z.re, F64.zero, by simpa [State.frameBody] using hr, hz, by simpa [State.frameBody] using hmag i hi, by decide⟩

end Sys2Proof.Machine
end

section
/-! ### The offsets of the render loop and the width of its grid (R242 to R245) -/
namespace Sys2Proof.Machine

/-- How many multiples of the hop lie below a limit: `ceil(limit / hop)`, none for a limit that is not positive (R245). -/
def hopCount (limit : Int) (hop : Nat) : Nat := ((limit + hop - 1) / hop).toNat

/-- With fuel for as many steps as the limit allows, the loop visits one offset per step. -/
theorem offsetsFrom_eq_map_range {hop n fuel off : Nat} {limit : Int} (hn : ∀ x : Nat, x < n ↔ (off : Int) + x * hop < limit)
    (hfuel : n ≤ fuel) : offsetsFrom hop limit fuel off = (List.range n).map (fun x => off + x * hop) := by
  induction fuel generalizing n off with
  | zero => rw [offsetsFrom, Nat.le_zero.1 hfuel, List.range_zero, List.map_nil]
  | succ fuel ih =>
    have h0 : 0 < n ↔ (off : Int) < limit := by simpa using hn 0
    cases n with
    | zero => rw [offsetsFrom, if_neg (h0.not.1 (by omega)), List.range_zero, List.map_nil]
    | succ n =>
      have hnext : ∀ x : Nat, x < n ↔ ((off + hop : Nat) : Int) + x * hop < limit := fun x => by
        rw [← Nat.succ_lt_succ_iff, hn, Nat.cast_succ, Nat.cast_add, Int.add_mul]
        omega
      rw [offsetsFrom, if_pos (h0.1 n.succ_pos), ih hnext (by omega), List.range_succ_eq_map]
      simp [Nat.succ_mul, Nat.add_assoc, Nat.add_comm hop]

section Hop
variable {hop : Nat} (hpos : 1 ≤ hop)
include hpos

theorem lt_hopCount_iff (limit : Int) (x : Nat) : x < hopCount limit hop ↔ (x : Int) * hop < limit := by
  rw [hopCount, Int.lt_toNat, Int.lt_iff_add_one_le, Int.le_ediv_iff_mul_le (by omega), Int.add_mul]
  omega

theorem lt_gridWidth_iff (count x : Nat) : x < gridWidth count hop ↔ x * hop < count := by
  rw [gridWidth, Nat.lt_iff_add_one_le, Nat.le_div_iff_mul_le hpos, Nat.add_mul]
  omega

theorem gridWidth_eq_ceil (count : Nat) : gridWidth count hop = ⌈(count : ℚ) / (hop : ℚ)⌉₊ := by
  refine eq_of_forall_lt_iff fun x => ?_
  rw [lt_gridWidth_iff hpos, Nat.lt_ceil, lt_div_iff₀ (by exact_mod_cast hpos)]
  exact_mod_cast Iff.rfl

/-- The fuel, one step per sample, is enough: a step goes at least one sample on (R243). -/
theorem frameOffsets_eq_map_range (count : Nat) :
    frameOffsets count hop = (List.range (hopCount (frameLimit count hop) hop)).map (fun x => x * hop) := by
  have hfuel : hopCount (frameLimit count hop) hop ≤ count := by
    refine Nat.le_of_not_lt fun h => ?_
    have hle : count ≤ count * hop := Nat.le_mul_of_pos_right count hpos
    have hlt := (lt_hopCount_iff hpos _ _).1 h
    rw [frameLimit, Config.nMax] at hlt
    omega
  rw [frameOffsets, offsetsFrom_eq_map_range (fun x => by simpa using lt_hopCount_iff hpos _ x) hfuel]
  simp

theorem length_frameOffsets (count : Nat) : (frameOffsets count hop).length = hopCount (frameLimit count hop) hop := by
  rw [frameOffsets_eq_map_range hpos, List.length_map, List.length_range]

theorem mem_frameOffsets_iff (count off : Nat) :
    off ∈ frameOffsets count hop ↔ hop ∣ off ∧ (off : Int) < frameLimit count hop := by
  simp only [frameOffsets_eq_map_range hpos, List.mem_map, List.mem_range, lt_hopCount_iff hpos]
  constructor
  · rintro ⟨x, hx, rfl⟩
    exact ⟨Nat.dvd_mul_left hop x, by exact_mod_cast hx⟩
  · rintro ⟨⟨x, rfl⟩, hlt⟩
    exact ⟨x, by rw [Int.mul_comm]; exact_mod_cast hlt, Nat.mul_comm x hop⟩

/-- The last offset stands more than a frame and a hop before the end, so one further column would still begin inside the buffer. -/
theorem length_frameOffsets_lt_gridWidth {count : Nat} (hc : 0 < count) :
    (frameOffsets count hop).length < gridWidth count hop := by
  rw [length_frameOffsets hpos, lt_gridWidth_iff hpos]
  cases hn : hopCount (frameLimit count hop) hop with
  | zero => rwa [Nat.zero_mul]
  | succ n =>
    have hlast := (lt_hopCount_iff hpos (frameLimit count hop) n).1 (by omega)
    rw [frameLimit, Config.nMax] at hlast
    rw [Nat.succ_mul]
    omega

end Hop

/-- Settles O57: the loop's offsets as a list, as a set, and their number against the grid's width. -/
theorem renderOffsetsAreTheSpecs : Obligations.RenderOffsetsAreTheSpecs := by
  refine ⟨fun count hop hpos => ⟨frameOffsets_eq_map_range hpos count, mem_frameOffsets_iff hpos count, fun off hoff => ?_,
    gridWidth_eq_ceil hpos count, length_frameOffsets_lt_gridWidth hpos⟩, length_frameOffsets (by decide) 44100, rfl, rfl⟩
  have hlt := ((mem_frameOffsets_iff hpos count off).1 hoff).2
  rw [frameLimit, Config.nMax] at hlt
  omega

end Sys2Proof.Machine
end

section
/-! ### The render loop runs to its end (R243, R246) -/
namespace Sys2Proof.Machine

variable {s : State}

/-- From a state with `ERR = 0` the transaction is answered, leaves `ERR = 0` and is no reason to abandon the script (R246). -/
def Txn.Proceeds (x : Txn) : Prop :=
  ∀ s : State, s.err = false → ∃ u r, runTxn x s = .next u ∧ u.err = false ∧ u.resps = r :: s.resps ∧
    (isCmdWrite x = true → r ≠ .err)

theorem proceeds_read (a : Addr) : (Txn.read a).Proceeds := fun s hs =>
  ⟨_, hostRead a s, runTxn_read a, hs, rfl, nofun⟩

theorem proceeds_write {a : Addr} {d : Cell}
    (h : ∀ s : State, s.err = false → ∃ t, hostWrite a d s = .next (t, .ok) ∧ t.err = false ∧ t.resps = s.resps) :
    (Txn.write a d).Proceeds := fun s hs => by
  obtain ⟨t, hw, he, hr⟩ := h s hs
  exact ⟨_, .ok, runTxn_write_next.2 ⟨_, hw, rfl⟩, he, congrArg (Resp.ok :: ·) hr, nofun⟩

theorem proceeds_write_smp {i : Nat} (hi : i < 2048) (d : Cell) : (Txn.write (BitVec.ofNat 16 i) d).Proceeds :=
  proceeds_write fun s hs =>
    ⟨s.setSmp (s.smp.put i (sampleOfCell d)), by rw [hostWrite, cellOf_smp_index hi, writeCell], hs, rfl⟩

theorem proceeds_loadSample {i : Nat} (hi : i < 2048) (x : Option Int) : (loadSample i x).Proceeds := by
  cases x with
  | none => exact proceeds_write_smp hi _
  | some v => exact proceeds_write_smp hi _

/-- `FRAME` never faults (R223). -/
theorem proceeds_frame : (scriptCmd .frame).Proceeds := proceeds_write fun s hs => by
  have he : s.frameBody.err = false := s.frameBody_err.trans hs
  refine ⟨s.frameBody, ?_, he, s.frameBody_resps⟩
  rw [hostWrite_of_exec hs (decodeAfterEncodeIsTheCommand .frame rfl) rfl, cmdResp_of_not_err he]

theorem proceeds_of_mem_columnScript {samples : List (Option Int)} {off : Nat} {x : Txn} (hx : x ∈ columnScript samples off) :
    x.Proceeds := by
  rw [columnScript, List.mem_append, List.mem_cons, loadFrame, readColumn, List.mem_map, List.mem_map] at hx
  obtain ⟨i, hi, rfl⟩ | rfl | ⟨y, -, rfl⟩ := hx
  · exact proceeds_loadSample (List.mem_range.1 hi) _
  · exact proceeds_frame
  · exact proceeds_read _

theorem length_columnScript (samples : List (Option Int)) (off : Nat) :
    (columnScript samples off).length = 2048 + 1 + 1024 := by
  simp [columnScript, loadFrame, readColumn, Config.nMax, Config.height]

theorem drive_cons {x : Txn} {xs : List Txn} {u : State} (hx : runTxn x s = .next u)
    (h : isCmdWrite x = true → u.resps.head? ≠ some .err) : drive (x :: xs) s = drive xs u := by
  rw [drive, hx]
  exact if_neg (by simpa using h)

/-- Transactions that proceed are all made, and each is answered once. -/
theorem drive_of_proceeds {xs : List Txn} (h : ∀ x ∈ xs, x.Proceeds) (hs : s.err = false) :
    ∃ t, drive xs s = .next (t, true) ∧ t.err = false ∧ t.resps.length = s.resps.length + xs.length := by
  induction xs generalizing s with
  | nil => exact ⟨s, rfl, hs, rfl⟩
  | cons x xs ih =>
    obtain ⟨u, r, hx, hu, hr, hok⟩ := h x List.mem_cons_self s hs
    obtain ⟨t, hd, ht, hlen⟩ := ih (fun y hy => h y (List.mem_cons_of_mem x hy)) hu
    refine ⟨t, (drive_cons hx fun hc => ?_).trans hd, ht, ?_⟩
    · simpa [hr] using hok hc
    · rw [hlen, hr, List.length_cons, List.length_cons]
      omega

theorem renderScript_eq_some {samples : List (Option Int)} {rate : Nat} {script : List Txn}
    (h : renderScript samples rate = some script) :
    script = .reset :: (frameOffsets samples.length (hopSize rate)).flatMap (columnScript samples) := by
  rw [renderScript] at h
  split at h
  · exact (Option.some.inj h).symm
  · cases h

/-- Settles O58: the reset clears `ERR` and gives no response; from there every transaction proceeds. -/
theorem renderNeverFaults : Obligations.RenderNeverFaults := by
  intro samples rate script s h
  obtain rfl := renderScript_eq_some h
  have hall : ∀ x ∈ (frameOffsets samples.length (hopSize rate)).flatMap (columnScript samples), x.Proceeds := fun x hx => by
    obtain ⟨off, -, hmem⟩ := List.mem_flatMap.1 hx
    exact proceeds_of_mem_columnScript hmem
  obtain ⟨t, hd, ht, hlen⟩ := drive_of_proceeds (s := s.hardReset.complete none) hall rfl
  refine ⟨t, (drive_cons runTxn_reset nofun).trans hd, ht, hlen.trans ?_⟩
  simp [List.length_flatMap, length_columnScript]

end Sys2Proof.Machine
end

section
/-! ### The table of faults: what a command does and what its write answers (R271, R274) -/
namespace Sys2Proof.Machine

variable {s t : State} {d : Cell} {i : Instr} {p : State × Resp}

/-- A command with no cause of the table leaves the flag; one with a cause latches the code the table gives. -/
theorem exec_table (h : exec i s = .next t) : (tableCode i s.mlen = none ∧ t.err = s.err) ∨
    ∃ c, tableCode i s.mlen = some (faultCode c) ∧ t = s.latchFault c (cmdData i) := by
  cases i with
  | nop =>
    obtain rfl := execNop_next.1 h
    exact .inl ⟨rfl, rfl⟩
  | win len =>
    obtain ⟨hl, rfl⟩ | ⟨hl, rfl⟩ := execWin_next.1 h
    · exact .inl ⟨if_neg (not_not.2 ((legalFrame_iff len).1 hl)), s.winBody_err⟩
    · exact .inr ⟨.eFrameLen, if_pos (mt (legalFrame_iff len).2 (Bool.eq_false_iff.1 hl)), rfl⟩
  | fft nr ni =>
    obtain ⟨hn, he, rfl⟩ | ⟨hn, he, rfl⟩ | ⟨hn, rfl⟩ := execFft_next.1 h
    · exact .inl ⟨(if_neg (not_not.2 (legalLen_iff_mem.1 hn))).trans (if_neg (not_not.2 he)), s.fftBody_err nr⟩
    · exact .inr ⟨.eMismatch, (if_neg (not_not.2 (legalLen_iff_mem.1 hn))).trans (if_pos he), rfl⟩
    · exact .inr ⟨.eLen, if_pos (mt legalLen_iff_mem.2 (Bool.eq_false_iff.1 hn)), rfl⟩
  | fftr n =>
    obtain ⟨hn, rfl⟩ | ⟨hn, rfl⟩ := execFftr_next.1 h
    · exact .inl ⟨if_neg (not_not.2 (legalLen_iff_mem.1 hn)), s.fftrBody_err n⟩
    · exact .inr ⟨.eLen, if_pos (mt legalLen_iff_mem.2 (Bool.eq_false_iff.1 hn)), rfl⟩
  | mag n =>
    obtain ⟨hn, rfl⟩ | ⟨hn, rfl⟩ := execMag_next.1 h
    · exact .inl ⟨if_neg (not_not.2 (legalLen_iff_mem.1 hn)), s.magBody_err n⟩
    · exact .inr ⟨.eLen, if_pos (mt legalLen_iff_mem.2 (Bool.eq_false_iff.1 hn)), rfl⟩
  | scale k =>
    obtain ⟨hk, rfl⟩ | ⟨hk, rfl⟩ := execScale_next.1 h
    · have hk := (legalHeight_iff k s.mlen).1 hk
      exact .inl ⟨if_neg (by omega), s.scaleBody_err k⟩
    · have hk := mt (legalHeight_iff k s.mlen).2 (Bool.eq_false_iff.1 hk)
      exact .inr ⟨.eHeight, if_pos (by omega), rfl⟩
  | frame =>
    obtain rfl := execFrame_next.1 h
    exact .inl ⟨rfl, s.frameBody_err⟩

/-- The write of a word that decodes, by the table: no cause, `OK` and the record kept; a cause, fault entry with its code. -/
theorem hostWrite_table (hs : s.err = false) (hd : decode d = .ok i) :
    (tableCode i s.mlen = none ∧ ∃ t, hostWrite cmdAddr d s = .next (t, .ok) ∧ SameRecord s t) ∨
      ∃ code, tableCode i s.mlen = some code ∧ hostWrite cmdAddr d s = .next (faulted code d s, .err) := by
  obtain ⟨t, ht⟩ := exec_total i s
  have hw := hostWrite_of_exec hs hd ht
  obtain ⟨hc, he⟩ | ⟨c, hc, rfl⟩ := exec_table ht
  · have he := he.trans hs
    rw [cmdResp_of_not_err he] at hw
    exact .inl ⟨hc, t, hw, exec_sameRecord ht he⟩
  · rw [cmdData_of_decode hd] at hw
    exact .inr ⟨_, hc, hw⟩

theorem hostWrite_of_tableCode {code : BitVec 4} (hs : s.err = false) (hd : decode d = .ok i) (hc : tableCode i s.mlen = some code) :
    hostWrite cmdAddr d s = .next (faulted code d s, .err) := by
  obtain ⟨hc', -⟩ | ⟨code', hc', hw⟩ := hostWrite_table hs hd
  · cases hc.symm.trans hc'
  · obtain rfl := Option.some.inj (hc.symm.trans hc')
    exact hw

/-- A command's write that leaves the flag set has recorded the code of the table. -/
theorem tableCode_of_hostWrite (hs : s.err = false) (hd : decode d = .ok i) (h : hostWrite cmdAddr d s = .next p)
    (hp : p.1.err = true) : tableCode i s.mlen = some p.1.errCode := by
  obtain ⟨-, t, hw, hr⟩ | ⟨code, hc, hw⟩ := hostWrite_table hs hd
  · obtain rfl := Host.Outcome.next.inj (h.symm.trans hw)
    cases hp.symm.trans (hr.err.trans hs)
  · obtain rfl := Host.Outcome.next.inj (h.symm.trans hw)
    exact hc

/-- A write to `CMD` that sets the flag has a cause of the table. -/
theorem cause_of_hostWrite (hs : s.err = false) (h : hostWrite cmdAddr d s = .next p) (hp : p.1.err = true) :
    (p.1.errCode = 5#4 ∧ ∃ e, decode d = .error e) ∨ ∃ i, decode d = .ok i ∧ tableCode i s.mlen = some p.1.errCode := by
  cases hd : decode d with
  | error e =>
    obtain rfl := Host.Outcome.next.inj (h.symm.trans (hostWrite_illegal hs ⟨e, hd⟩))
    exact .inl ⟨rfl, e, rfl⟩
  | ok i => exact .inr ⟨i, rfl, tableCode_of_hostWrite hs hd h hp⟩

/-- Settles O8: the write of a command is `hostWrite_table`, and of the steps only such a write sets the flag. -/
theorem faultTable : Obligations.FaultTable := by
  refine ⟨fun s d hs => ⟨hostWrite_illegal hs, fun i hd => ⟨fun code => hostWrite_of_tableCode hs hd, fun hc => ?_⟩⟩,
    fun s t hs h ht => ?_⟩
  · obtain ⟨-, ht⟩ | ⟨code, hc', -⟩ := hostWrite_table hs hd
    · exact ht
    · cases hc.symm.trans hc'
  · obtain ⟨d, rest, -, hp, -⟩ := step_sets_err h hs ht
    rw [step_of_port_cons hp] at h
    obtain ⟨p, hw, rfl⟩ := runTxn_write_next.1 h
    exact ⟨d, rest, hp, cause_of_hostWrite (s := s.setPort rest) hs hw ht⟩

/-- Settles O9: the cases of `CommandDispatch`, the two checks of `FFT` in their order, and the codes in each row of the table. -/
theorem faultPriority : Obligations.FaultPriority := by
  refine ⟨fun s d hs => hostWrite_of_err hs d, fun s d hs => hostWrite_illegal hs, ⟨.strayIa, rfl⟩,
    fun s nr ni hn => fft_raises_eLen hn ni s, fun s nr ni hn hne => fft_raises_eMismatch hn hne s,
    fun s => ⟨fft_raises_eLen (by decide) 4 s, fft_raises_eMismatch (by decide) (by decide) s, fft_raises_eLen (by decide) 6 s⟩,
    fun s d i code hs hd h => ?_⟩
  have hc : tableCode i s.mlen = some code := tableCode_of_hostWrite hs hd h rfl
  cases i with
  | nop | frame => cases hc
  | win _ | fftr _ | mag _ | scale _ =>
    rw [tableCode] at hc
    split at hc
    · exact (Option.some.inj hc).symm
    · cases hc
  | fft nr ni =>
    rw [tableCode] at hc
    split_ifs at hc
    · exact .inr (Option.some.inj hc).symm
    · exact .inl (Option.some.inj hc).symm

end Sys2Proof.Machine
end

section
/-! ### Fault entry and the halt (R275, R277) -/
namespace Sys2Proof.Machine

variable {s t : State} {d : Cell} {p : State × Resp}

theorem cmdResp_eq_err_iff : cmdResp t = .err ↔ t.err = true := by
  cases h : t.err <;> simp [cmdResp, h]

/-- From `ERR = 0`, a write to `CMD` answers `ERR` exactly when it sets the flag. -/
theorem cmdWrite_resp_eq_err_iff (hs : s.err = false) (h : cmdWrite d s = .next p) : p.2 = .err ↔ p.1.err = true := by
  obtain ⟨he, -⟩ | ⟨-, -, rfl⟩ | ⟨-, i, u, -, -, rfl⟩ := cmdWrite_next.1 h
  · cases hs.symm.trans he
  · exact iff_of_true rfl rfl
  · exact cmdResp_eq_err_iff

/-- Settles O10: the flag and the response say the same, and a write that sets the flag latches one of the five codes. -/
theorem faultEntryLatchesAndHalts : Obligations.FaultEntryLatchesAndHalts := by
  intro s t d r hs h hor
  rw [hostWrite_cmdAddr] at h
  have ht : t.err = true := hor.elim id (cmdWrite_resp_eq_err_iff hs h).1
  obtain ⟨c, hp⟩ := cmdWrite_sets_err hs h ht
  obtain ⟨rfl, rfl⟩ := Prod.mk.inj hp
  obtain ⟨h1, h5⟩ := faultCode_bounds c
  exact ⟨rfl, ⟨faultCode c, h1, h5, rfl⟩, hostWrite_of_err ht⟩

theorem step_of_cmdWrite_halted {rest : List Txn} (hs : s.err = true) (hp : s.port = .write cmdAddr d :: rest) :
    step s = .next ((s.setPort rest).complete (some .err)) := by
  rw [step_of_port_cons hp]
  exact runTxn_write_next.2 ⟨_, hostWrite_of_err (s := s.setPort rest) hs d, rfl⟩

/-- While halted, a write that does not clear the flag keeps the record. -/
theorem hostWrite_keeps_record {a : Addr} (hs : s.err = true) (h : hostWrite a d s = .next p) (hp : p.1.err = true) :
    SameRecord s p.1 := by
  obtain ⟨-, hcmd⟩ | ⟨-, -, rfl⟩ | hk := writeCell_next (cellOf_inside a) h
  · rw [cmdWrite_of_err hs] at hcmd
    obtain rfl := Host.Outcome.next.inj hcmd
    exact ⟨rfl, rfl, rfl⟩
  · cases hp
  · exact hk.record

/-- A step that neither sets nor clears the flag keeps the record of the first fault. -/
theorem step_keeps_record (hs : s.err = true) (h : step s = .next t) (ht : t.err = true) : SameRecord s t := by
  obtain ⟨-, rfl⟩ | ⟨x, rest, -, hx⟩ := step_next.1 h
  · exact ⟨rfl, rfl, rfl⟩
  · cases x with
    | read a =>
      obtain rfl := Host.Outcome.next.inj hx
      exact ⟨rfl, rfl, rfl⟩
    | write a d =>
      obtain ⟨p, hw, rfl⟩ := runTxn_write_next.1 hx
      obtain ⟨he, hc, hi⟩ := hostWrite_keeps_record (s := s.setPort rest) hs hw ht
      exact ⟨he, hc, hi⟩
    | reset =>
      obtain rfl := Host.Outcome.next.inj hx
      cases ht

/-- Settles O11: a step that ends with the flag set keeps the record, and one that clears it is one of the two resets, which are known
whole. -/
theorem haltEndsOnlyByReset : Obligations.HaltEndsOnlyByReset := by
  intro s t hs h
  cases ht : t.err with
  | true =>
    obtain ⟨-, hc, hi⟩ := step_keeps_record hs h ht
    exact .inl ⟨rfl, hc, hi, fun d rest hp => Host.Outcome.next.inj (h.symm.trans (step_of_cmdWrite_halted hs hp))⟩
  | false =>
    obtain ⟨rest, hreset⟩ := step_clears_err h hs ht
    refine .inr ⟨⟨rest, hreset⟩, rfl, ?_⟩
    obtain hp | ⟨d, hd, hp⟩ := hreset
    · obtain rfl := Host.Outcome.next.inj (h.symm.trans (step_of_reset hp))
      exact ⟨rfl, rfl, rfl, fun k => ⟨rfl, rfl⟩, fun d' rest' hp' => nomatch hp.symm.trans hp'⟩
    · obtain rfl := Host.Outcome.next.inj (h.symm.trans (step_of_softReset hd hp))
      exact ⟨rfl, rfl, rfl, fun k => ⟨rfl, rfl⟩, fun _ _ _ => ⟨rfl, rfl, rfl, rfl, rfl⟩⟩

end Sys2Proof.Machine
end

section
/-! ### The column of a frame is that of its samples (R296) -/
namespace Sys2Proof.Machine

/-- No payload of a NaN is seen in a pixel (R182). -/
theorem pixel_congr {v w : Bits64} (h : SameNumber v w) : pixel Num.f64 v = pixel Num.f64 w := by
  obtain rfl | ⟨hv, hw⟩ := h
  · rfl
  · rw [pixel_of_isNaN hv, pixel_of_isNaN hw]

theorem sameNumber_rdMag_magBody {s u : State} {n i : Nat} (hn : n ∈ legalLengths) (hs : TablesMatch s) (hu : TablesMatch u)
    (hr : ∀ j, j < n → s.rdXr j = u.rdXr j) (hi : i < n) : SameNumber ((s.magBody n).rdMag i) ((u.magBody n).rdMag i) := by
  have hrel := sameNumber_magBody hn hs hu hr hi
  obtain ⟨-, -, v, -, -, hv, -⟩ := magBody_magnitudes hn s hi
  obtain ⟨-, -, w, -, -, hw, -⟩ := magBody_magnitudes hn u hi
  rw [hv, hw, Option.rel_some_some] at hrel
  rwa [State.rdMag, State.rdMag, hv, hw]

theorem winBody_rdXr {i : Nat} (hi : i < 2048) (s : State) : s.winBody.rdXr i = winSample Num.f64 (s.rdSmp i) (wrom i) := by
  rw [State.rdXr, look_winBody_xr, if_pos hi, Option.getD_some]

/-- Equal samples give equal windowed frames, whose magnitudes are the same numbers, so their pixels are equal. -/
theorem look_frameBody_pix_congr {s u : State} (hs : TablesMatch s) (hu : TablesMatch u)
    (hsmp : ∀ i, i < 2048 → s.rdSmp i = u.rdSmp i) {y : Nat} (hy : y < 1024) :
    ∃ q, s.frameBody.pix.look y = some q ∧ u.frameBody.pix.look y = some q := by
  refine ⟨_, look_scaleBody_pix hy _, (look_scaleBody_pix hy _).trans ?_⟩
  split
  case isTrue => rfl
  case isFalse h0 =>
    have hws : TablesMatch s.winBody := hs.of_sameCache (sameCache_of_win (exec_win_nMax s))
    have hwu : TablesMatch u.winBody := hu.of_sameCache (sameCache_of_win (exec_win_nMax u))
    have hxr : ∀ i, i < 2048 → s.winBody.rdXr i = u.winBody.rdXr i := fun i hi => by
      rw [winBody_rdXr hi, winBody_rdXr hi, hsmp i hi]
    have hmag : SameNumber ((s.winBody.magBody 2048).rdMag (1024 - y)) ((u.winBody.magBody 2048).rdMag (1024 - y)) :=
      sameNumber_rdMag_magBody (by decide) hws hwu hxr (by omega)
    exact congrArg (fun k => some (BitVec.ofNat 8 k)) (pixel_congr hmag).symm

theorem hostRead_col {s : State} {y : Nat} {q : Intensity} (hy : y < 1024) (h : s.pix.look y = some q) :
    hostRead (BitVec.ofNat 16 (0x2400 + y)) s = .data (cellOfColor (prom q)) := by
  rw [hostRead, cellOf_col_index hy, readCell, State.rdPix, h, Option.getD_some]

/-- Settles O53: every cell of the column is written by `FRAME`, with a value the samples alone determine. -/
theorem columnDependsOnTheFrameAlone : Obligations.ColumnDependsOnTheFrameAlone := by
  refine fun s u hs hu hsmp => ⟨_, _, rfl, rfl, fun y hy => ?_⟩
  obtain ⟨q, hsq, huq⟩ := look_frameBody_pix_congr hs.tables hu.tables hsmp hy
  exact ⟨hsq.trans huq.symm, (hostRead_col hy hsq).trans (hostRead_col hy huq).symm⟩

end Sys2Proof.Machine
end

section
/-! ### A transaction is taken off the port and answered once (R62, R272) -/
namespace Sys2Proof.Machine

variable {s t : State}

/-- The transactions to come, the responses given and the draw counter are the same (the model's own fields). -/
structure SameHost (s t : State) : Prop where
  port : t.port = s.port
  resps : t.resps = s.resps
  draw : t.draw = s.draw

theorem SameHost.refl (s : State) : SameHost s s := ⟨rfl, rfl, rfl⟩

theorem exec_sameHost {i : Instr} (h : exec i s = .next t) : SameHost s t := by
  cases i with
  | nop =>
    obtain rfl := execNop_next.1 h
    exact .refl t
  | win len =>
    obtain ⟨-, rfl⟩ | ⟨-, rfl⟩ := execWin_next.1 h
    · exact ⟨s.winBody_port, s.winBody_resps, s.winBody_draw⟩
    · exact ⟨rfl, rfl, rfl⟩
  | fft nr ni =>
    obtain ⟨-, -, rfl⟩ | ⟨-, -, rfl⟩ | ⟨-, rfl⟩ := execFft_next.1 h
    · exact ⟨s.fftBody_port nr, s.fftBody_resps nr, s.fftBody_draw nr⟩
    · exact ⟨rfl, rfl, rfl⟩
    · exact ⟨rfl, rfl, rfl⟩
  | fftr n =>
    obtain ⟨-, rfl⟩ | ⟨-, rfl⟩ := execFftr_next.1 h
    · exact ⟨s.fftrBody_port n, s.fftrBody_resps n, s.fftrBody_draw n⟩
    · exact ⟨rfl, rfl, rfl⟩
  | mag n =>
    obtain ⟨-, rfl⟩ | ⟨-, rfl⟩ := execMag_next.1 h
    · exact ⟨s.magBody_port n, s.magBody_resps n, s.magBody_draw n⟩
    · exact ⟨rfl, rfl, rfl⟩
  | scale k =>
    obtain ⟨-, rfl⟩ | ⟨-, rfl⟩ := execScale_next.1 h
    · exact ⟨s.scaleBody_port k, s.scaleBody_resps k, s.scaleBody_draw k⟩
    · exact ⟨rfl, rfl, rfl⟩
  | frame =>
    obtain rfl := execFrame_next.1 h
    exact ⟨s.frameBody_port, s.frameBody_resps, s.frameBody_draw⟩

theorem cmdWrite_sameHost {d : Cell} {p : State × Resp} (h : cmdWrite d s = .next p) : SameHost s p.1 := by
  obtain ⟨-, rfl⟩ | ⟨-, -, rfl⟩ | ⟨-, i, u, -, hu, rfl⟩ := cmdWrite_next.1 h
  · exact .refl s
  · exact ⟨rfl, rfl, rfl⟩
  · exact exec_sameHost hu

theorem writeCell_sameHost {c : PortCell} {d : Cell} {p : State × Resp} (h : writeCell d s c = .next p) : SameHost s p.1 := by
  cases c with
  | cmd => exact cmdWrite_sameHost h
  | smp _ | xr _ | xi _ | mag _ | pix _ =>
    obtain rfl := Host.Outcome.next.inj h
    exact ⟨rfl, rfl, rfl⟩
  | mlen =>
    rw [writeCell] at h
    split at h <;> obtain rfl := Host.Outcome.next.inj h <;> exact ⟨rfl, rfl, rfl⟩
  | ctrl =>
    obtain rfl := Host.Outcome.next.inj h
    cases d.getLsbD 0 <;> exact ⟨rfl, rfl, rfl⟩
  | col _ | prom _ | wrom _ | status | twlen | id | errInfo | reserved =>
    obtain rfl := Host.Outcome.next.inj h
    exact .refl s

/-- Settles O50: a step takes the transaction off the port, running it touches none of the model's own fields, and its end answers it
once. -/
theorem everyStepAnswers : Obligations.EveryStepAnswers := by
  refine ⟨exec_total, fun s x rest hp => ?_⟩
  rw [step_of_port_cons hp]
  cases x with
  | read a => exact ⟨_, runTxn_read a, rfl, rfl, _, rfl⟩
  | write a d =>
    obtain ⟨p, hw⟩ := hostWrite_total a d (s.setPort rest)
    obtain ⟨hport, hresps, hdraw⟩ := writeCell_sameHost hw
    exact ⟨_, runTxn_write_next.2 ⟨p, hw, rfl⟩, hport, congrArg (· + 1) hdraw, p.2, congrArg (p.2 :: ·) hresps⟩
  | reset => exact ⟨_, runTxn_reset, rfl, rfl, rfl⟩

end Sys2Proof.Machine
end

section
/-! ### The two resets (R311, R312) -/
namespace Sys2Proof.Machine

/-- Settles O45: a hardware reset step ends in `State.hardReset`, which like `State.reset` holds 0 in every register and no value in any
array; no height is at least 1 and at most an `MLEN` of 0. -/
theorem hardwareReset : Obligations.HardwareReset := by
  refine ⟨fun s rest hp => ⟨_, step_of_reset hp, rfl, rfl, rfl, rfl, rfl, rfl, fun i => ?_⟩, ⟨rfl, rfl, rfl, rfl, rfl, fun i => ?_⟩,
    fun h s hm => scale_raises_eHeight (by omega)⟩
  · exact ⟨rfl, rfl, rfl, rfl, rfl, rfl, rfl⟩
  · exact ⟨rfl, rfl, rfl, rfl, rfl, rfl, rfl⟩

/-- A write of bit 0 to `CTRL` is the soft reset, halted or not. -/
theorem hostWrite_softReset {d : Cell} (hd : d.getLsbD 0 = true) (s : State) : hostWrite ctrlAddr d s = .next (s.softReset, .ok) := by
  rw [hostWrite, cellOf_ctrlAddr, writeCell, if_pos hd]

/-- Settles O46: the write is the soft reset whatever the flag is, and the soft reset names the fields it clears. -/
theorem softResetKeepsTheBuffers : Obligations.SoftResetKeepsTheBuffers :=
  ⟨fun s _ hd => ⟨_, hostWrite_softReset hd s, rfl, rfl, rfl, rfl, rfl, fun _ => ⟨rfl, rfl⟩, rfl, rfl, rfl, rfl,
    ⟨rfl, rfl, rfl, rfl⟩⟩, fun _ => rfl⟩

end Sys2Proof.Machine
end

section
/-! ### What a command changes on the port (R321, R322) -/
namespace Sys2Proof.Machine

variable {s t : State} {c : PortCell} {n : Nat}

/-! #### The writes of the commands: a read of another cell answers as before -/

theorem readCell_setXr_fill (s : State) (f : Nat → Bits64) (h : ∀ k, c = .xr k → n ≤ k) :
    readCell (s.setXr (s.xr.fill n f)) c = readCell s c := by
  cases c with
  | xr k => simp [readCell, State.rdXr, (h k rfl).not_gt]
  | _ => rfl

theorem readCell_setXi_fill (s : State) (f : Nat → Bits64) (h : ∀ k, c = .xi k → n ≤ k) :
    readCell (s.setXi (s.xi.fill n f)) c = readCell s c := by
  cases c with
  | xi k => simp [readCell, State.rdXi, (h k rfl).not_gt]
  | _ => rfl

theorem readCell_setMag_fill (s : State) (f : Nat → Bits64) (h : ∀ k, c = .mag k → n ≤ k) :
    readCell (s.setMag (s.mag.fill n f)) c = readCell s c := by
  cases c with
  | mag k => simp [readCell, State.rdMag, (h k rfl).not_gt]
  | _ => rfl

/-- A cell of `PIX` is seen through `COL` too (R38). -/
theorem readCell_setPix_fill (s : State) (f : Nat → Intensity) (h : ∀ y, c = .pix y ∨ c = .col y → n ≤ y) :
    readCell (s.setPix (s.pix.fill n f)) c = readCell s c := by
  cases c with
  | pix y => simp [readCell, State.rdPix, (h y (.inl rfl)).not_gt]
  | col y => simp [readCell, State.rdPix, (h y (.inr rfl)).not_gt]
  | _ => rfl

theorem readCell_setMlen (n : Nat) (s : State) (h : c ≠ .mlen) : readCell (s.setMlen n) c = readCell s c := by
  cases c with
  | mlen => exact absurd rfl h
  | _ => rfl

/-- Of the cache only its key is seen on the port (R61). -/
theorem readCell_cachePrepare (n : Nat) (s : State) (h : c ≠ .twlen) : readCell (s.cachePrepare n) c = readCell s c := by
  unfold State.cachePrepare
  split
  · cases c with
    | twlen => exact absurd rfl h
    | _ => rfl
  · rfl

theorem readCell_latchFault (s : State) (code : FaultCode) (d : Cell) (hst : c ≠ .status) (hinfo : c ≠ .errInfo) :
    readCell (s.latchFault code d) c = readCell s c := by
  cases c with
  | status => exact absurd rfl hst
  | errInfo => exact absurd rfl hinfo
  | _ => rfl

/-! #### The bodies of the commands: a read of a cell the command does not store answers as before -/

theorem readCell_winBody (s : State) (h : storedBy (.win 2048) c = false) : readCell s.winBody c = readCell s c :=
  readCell_setXr_fill (n := 2048) s _ <| by
    rintro k rfl
    simpa [storedBy] using h

theorem readCell_storeTransform (s : State) (y : List (Cx Bits64)) (h : storedBy (.fftr n) c = false) :
    readCell (s.storeTransform n y) c = readCell s c := by
  rw [State.storeTransform]
  refine (readCell_setXi_fill (s.setXr _) _ ?_).trans (readCell_setXr_fill s _ ?_)
  · rintro k rfl
    simpa [storedBy] using h
  · rintro k rfl
    simpa [storedBy] using h

theorem readCell_prepared (n : Nat) (s : State) (h : storedBy (.fftr n) c = false) : readCell (s.cachePrepare n) c = readCell s c :=
  readCell_cachePrepare n s <| by
    rintro rfl
    cases h

theorem readCell_fftBody (s : State) (h : storedBy (.fftr n) c = false) : readCell (s.fftBody n) c = readCell s c :=
  (readCell_storeTransform _ _ h).trans (readCell_prepared n s h)

theorem readCell_fftrBody (s : State) (h : storedBy (.fftr n) c = false) : readCell (s.fftrBody n) c = readCell s c :=
  (readCell_storeTransform _ _ h).trans (readCell_prepared n s h)

/-- `MAG` stores what `FFTR` stores, and more (R150). -/
theorem storedBy_fftr_of_mag (h : storedBy (.mag n) c = false) : storedBy (.fftr n) c = false := by
  cases c with
  | xr _ | xi _ | twlen => exact h
  | _ => rfl

theorem readCell_magBody (s : State) (h : storedBy (.mag n) c = false) : readCell (s.magBody n) c = readCell s c := by
  rw [State.magBody, State.storeMagnitudes, readCell_setMlen, readCell_setMag_fill, readCell_fftrBody s (storedBy_fftr_of_mag h)]
  · rintro k rfl
    simpa [storedBy] using h
  · rintro rfl
    cases h

theorem readCell_scaleBody (s : State) (h : storedBy (.scale n) c = false) : readCell (s.scaleBody n) c = readCell s c :=
  readCell_setPix_fill s _ <| by
    rintro y (rfl | rfl)
    · simpa [storedBy] using h
    · simpa [storedBy] using h

/-- `FRAME` stores what its three commands store (R223). -/
theorem storedBy_frame (c : PortCell) :
    storedBy .frame c = (storedBy (.win 2048) c || storedBy (.mag 2048) c || storedBy (.scale 1024) c) := by
  cases c with
  | xr k => simp [storedBy]
  | xi k | mag k => simp [storedBy]
  | _ => rfl

theorem readCell_frameBody (s : State) (h : storedBy .frame c = false) : readCell s.frameBody c = readCell s c := by
  rw [storedBy_frame, Bool.or_eq_false_iff, Bool.or_eq_false_iff] at h
  obtain ⟨⟨hwin, hmag⟩, hscale⟩ := h
  exact (readCell_scaleBody _ hscale).trans ((readCell_magBody _ hmag).trans (readCell_winBody s hwin))

/-- On the port a command that does not fault changes only the cells its rule stores (R321). -/
theorem readCell_exec {i : Instr} (h : exec i s = .next t) (ht : t.err = false) (hc : storedBy i c = false) :
    readCell t c = readCell s c := by
  cases i with
  | nop =>
    obtain rfl := execNop_next.1 h
    rfl
  | win len =>
    obtain ⟨-, rfl⟩ | ⟨-, rfl⟩ := execWin_next.1 h
    · exact readCell_winBody s hc
    · cases ht
  | fft nr ni =>
    obtain ⟨-, -, rfl⟩ | ⟨-, -, rfl⟩ | ⟨-, rfl⟩ := execFft_next.1 h
    · exact readCell_fftBody s hc
    · cases ht
    · cases ht
  | fftr n =>
    obtain ⟨-, rfl⟩ | ⟨-, rfl⟩ := execFftr_next.1 h
    · exact readCell_fftrBody s hc
    · cases ht
  | mag n =>
    obtain ⟨-, rfl⟩ | ⟨-, rfl⟩ := execMag_next.1 h
    · exact readCell_magBody s hc
    · cases ht
  | scale k =>
    obtain ⟨-, rfl⟩ | ⟨-, rfl⟩ := execScale_next.1 h
    · exact readCell_scaleBody s hc
    · cases ht
  | frame =>
    obtain rfl := execFrame_next.1 h
    exact readCell_frameBody s hc

/-! #### A fault: `STATUS` and `ERRINFO`, which have one address each -/

/-- The address of a register, `none` for any other cell of the port (R61). -/
def PortCell.registerAddr : PortCell → Option Nat
  | .cmd => some 0x3800
  | .status => some 0x3801
  | .mlen => some 0x3802
  | .twlen => some 0x3803
  | .ctrl => some 0x3804
  | .id => some 0x3805
  | .errInfo => some 0x3806
  | _ => none

theorem registerAddr_registerOf {k m : Nat} (h : (registerOf k).registerAddr = some m) : m = 0x3800 + k := by
  unfold registerOf at h
  split at h <;> cases h <;> rfl

theorem registerAddr_cellOf_of_lt {a : Addr} (h : a.toNat < 0x3800) : (cellOf a).registerAddr = none := by
  simp only [cellOf]
  generalize a.toNat = n at h ⊢
  split_ifs <;> rfl

/-- A register has one address. -/
theorem toNat_of_registerAddr {a : Addr} {m : Nat} (h : (cellOf a).registerAddr = some m) : a.toNat = m := by
  by_cases ha : 0x3800 ≤ a.toNat
  · rw [cellOf_high ha] at h
    exact (Nat.add_sub_of_le ha).symm.trans (registerAddr_registerOf h).symm
  · rw [registerAddr_cellOf_of_lt (Nat.lt_of_not_le ha)] at h
    cases h

/-- Settles O47: a command that does not fault is `readCell_exec`; one that faults latches the record, which is seen at two addresses. -/
theorem commandsChangeOnlyTheirCells : Obligations.CommandsChangeOnlyTheirCells := by
  refine ⟨fun i s t _ h ht a hc => readCell_exec h ht hc, fun i s t hs h ht a hst hinfo => ?_⟩
  obtain hr | ⟨code, rfl⟩ := exec_record h
  · rw [hr.err, hs] at ht
    cases ht
  · refine readCell_latchFault s code _ (fun hc => hst ?_) (fun hc => hinfo ?_)
    · exact BitVec.eq_of_toNat_eq (toNat_of_registerAddr (m := 0x3801) (by rw [hc, PortCell.registerAddr]))
    · exact BitVec.eq_of_toNat_eq (toNat_of_registerAddr (m := 0x3806) (by rw [hc, PortCell.registerAddr]))

end Sys2Proof.Machine
end

section
/-! ### The draw counter: where every cell that is read holds a value, it is seen in the payloads of computed NaNs only (U3, U15) -/
namespace Sys2Proof.Machine

variable {s t u : State} {n : Nat} (k : Nat)

/-! #### Cells -/

theorem Cells.look_ne_none_of_not_missing {α : Type} {c : Cells α} {lo hi i : Nat} (h : c.missing lo hi = false) (hlo : lo ≤ i)
    (hhi : i < hi) : c.look i ≠ none := fun hnone =>
  Bool.false_ne_true (h.symm.trans (Cells.missing_iff.2 ⟨i, hlo, hhi, hnone⟩))

/-- A read of a cell that holds a value draws no free value. -/
theorem Cells.getD_look_of_not_missing {α : Type} {c : Cells α} {i : Nat} (h : c.missing 0 n = false) (hi : i < n) (a b : α) :
    (c.look i).getD a = (c.look i).getD b :=
  getD_eq_getD_of_isNone_eq_false (Option.isNone_eq_false_iff.2 <| Option.isSome_iff_ne_none.2 <|
    Cells.look_ne_none_of_not_missing h (Nat.zero_le i) hi) a b

theorem Cells.fill_congr {α : Type} {f g : Nat → α} (c : Cells α) (h : ∀ i, i < n → f i = g i) : c.fill n f = c.fill n g :=
  congrArg (· ++ _) (List.map_congr_left fun i hi => congrArg (Prod.mk i) (h i (List.mem_range.1 hi)))

theorem rel_sameNumber_of_eq {a b : Option Bits64} (h : a = b) : Option.Rel SameNumber a b := by
  subst h
  cases a with
  | none => exact .none
  | some v => exact .some (.inl rfl)

theorem sameNumber_getD {a b : Option Bits64} (h : Option.Rel SameNumber a b) (ha : a ≠ none) (x y : Bits64) :
    SameNumber (a.getD x) (b.getD y) := by
  cases h with
  | none => exact absurd rfl ha
  | some h => exact h

/-! #### States that are the same but for the payloads of NaNs -/

theorem SameButNaN.redraw (s : State) : SameButNaN s { s with draw := k } where
  smp := rfl
  xr _ := rel_sameNumber_of_eq rfl
  xi _ := rel_sameNumber_of_eq rfl
  mag _ := rel_sameNumber_of_eq rfl
  pix := rfl
  cache := ⟨rfl, rfl, rfl⟩
  mlen := rfl
  record := ⟨rfl, rfl, rfl⟩
  port := rfl
  resps := rfl

theorem SameButNaN.complete (h : SameButNaN t u) (r : Option Resp) : SameButNaN (t.complete r) (u.complete r) where
  smp := h.smp
  xr := h.xr
  xi := h.xi
  mag := h.mag
  pix := h.pix
  cache := ⟨h.cache.twlen, h.cache.twc, h.cache.tws⟩
  mlen := h.mlen
  record := ⟨h.record.err, h.record.errCode, h.record.errInfo⟩
  port := h.port
  resps := congrArg (r.toList ++ ·) h.resps

theorem SameButNaN.cmdResp_eq (h : SameButNaN t u) : cmdResp u = cmdResp t := by rw [cmdResp, cmdResp, h.record.err]

/-- The same transform gets a payload of its own in each state (U15). -/
theorem SameButNaN.storeTransform (h : SameButNaN t u) (n : Nat) (y : List (Cx Bits64)) :
    SameButNaN (t.storeTransform n y) (u.storeTransform n y) where
  smp := by simp [h.smp]
  xr i := by
    rw [State.storeTransform_xr, State.storeTransform_xr, Cells.look_fill, Cells.look_fill]
    split
    case isTrue => exact .some (sameNumber_outCell ..)
    case isFalse => exact h.xr i
  xi i := by
    rw [State.storeTransform_xi, State.storeTransform_xi, Cells.look_fill, Cells.look_fill]
    split
    case isTrue => exact .some (sameNumber_outCell ..)
    case isFalse => exact h.xi i
  mag := by simpa using h.mag
  pix := by simp [h.pix]
  cache := ⟨by simp [h.cache.twlen], by simp [h.cache.twc], by simp [h.cache.tws]⟩
  mlen := by simp [h.mlen]
  record := ⟨by simp [h.record.err], by simp [h.record.errCode], by simp [h.record.errInfo]⟩
  port := by simp [h.port]
  resps := by simp [h.resps]

/-- A magnitude squares the parts, and the square of a NaN is the one NaN of the rules (R150, U15). -/
theorem SameButNaN.storeMagnitudes (h : SameButNaN t u) (hxr : ∀ i, i < n → t.xr.look i ≠ none)
    (hxi : ∀ i, i < n → t.xi.look i ≠ none) : SameButNaN (t.storeMagnitudes n) (u.storeMagnitudes n) where
  smp := by simp [h.smp]
  xr := by simpa using h.xr
  xi := by simpa using h.xi
  mag i := by
    rw [State.storeMagnitudes_mag, State.storeMagnitudes_mag, Cells.look_fill, Cells.look_fill]
    split
    case isTrue hi =>
      have hmag : magnitude Num.f64 ⟨t.rdXr i, t.rdXi i⟩ = magnitude Num.f64 ⟨u.rdXr i, u.rdXi i⟩ :=
        magnitude_congr (sameNumber_getD (h.xr i) (hxr i hi) _ _) (sameNumber_getD (h.xi i) (hxi i hi) _ _)
      rw [hmag]
      exact .some (sameNumber_settleNan ..)
    case isFalse => exact h.mag i
  pix := by simp [h.pix]
  cache := ⟨by simp [h.cache.twlen], by simp [h.cache.twc], by simp [h.cache.tws]⟩
  mlen := by simp
  record := ⟨by simp [h.record.err], by simp [h.record.errCode], by simp [h.record.errInfo]⟩
  port := by simp [h.port]
  resps := by simp [h.resps]

/-- No payload is seen in a pixel (R182). -/
theorem SameButNaN.scaleBody (h : SameButNaN t u) (hmag : ∀ j, 1 ≤ j → j < n → t.mag.look j ≠ none) :
    SameButNaN (t.scaleBody n) (u.scaleBody n) where
  smp := by simp [h.smp]
  xr := by simpa using h.xr
  xi := by simpa using h.xi
  mag := by simpa using h.mag
  pix := by
    rw [State.scaleBody_pix, State.scaleBody_pix, h.pix]
    refine Cells.fill_congr _ fun y hy => ?_
    split
    case isTrue => rfl
    case isFalse h0 =>
      exact congrArg (BitVec.ofNat 8) (pixel_congr (sameNumber_getD (h.mag (n - y)) (hmag (n - y) (by omega) (by omega)) _ _))
  cache := ⟨by simp [h.cache.twlen], by simp [h.cache.twc], by simp [h.cache.tws]⟩
  mlen := by simp [h.mlen]
  record := ⟨by simp [h.record.err], by simp [h.record.errCode], by simp [h.record.errInfo]⟩
  port := by simp [h.port]
  resps := by simp [h.resps]

/-! #### The bodies of the commands -/

/-- `WIN` writes no NaN, so it uses no free value (assumption log 3). -/
theorem winBody_redraw (h : s.smp.missing 0 Config.nMax = false) : State.winBody { s with draw := k } = { s.winBody with draw := k } :=
  congrArg (fun c => State.setXr c { s with draw := k }) <| Cells.fill_congr s.xr fun i hi =>
    congrArg (winSample Num.f64 · (wrom i)) (Cells.getD_look_of_not_missing h hi _ _)

/-- The twiddle cache depends on the command's length and the cache alone (R142). -/
theorem cachePrepare_redraw (n : Nat) (s : State) : State.cachePrepare n { s with draw := k } = { s.cachePrepare n with draw := k } := by
  unfold State.cachePrepare
  split <;> rfl

theorem SameButNaN.cachePrepare (n : Nat) (s : State) : SameButNaN (s.cachePrepare n) (State.cachePrepare n { s with draw := k }) := by
  rw [cachePrepare_redraw k n s]
  exact .redraw k _

theorem rdXr_redraw {i : Nat} (h : s.xr.missing 0 n = false) (hi : i < n) : State.rdXr { s with draw := k } i = s.rdXr i :=
  Cells.getD_look_of_not_missing h hi _ _

theorem rdXi_redraw {i : Nat} (h : s.xi.missing 0 n = false) (hi : i < n) : State.rdXi { s with draw := k } i = s.rdXi i :=
  Cells.getD_look_of_not_missing h hi _ _

section Transform
variable (hs : TablesMatch s) (hn : n ∈ legalLengths) (hxr : s.xr.missing 0 n = false)
include hs hn hxr

/-- Equal inputs and the table of R143 in both states give one transform. -/
theorem SameButNaN.fftBody (hxi : s.xi.missing 0 n = false) : SameButNaN (s.fftBody n) (State.fftBody n { s with draw := k }) := by
  have hin : (State.cachePrepare n { s with draw := k }).complexInput n = (s.cachePrepare n).complexInput n :=
    List.map_congr_left fun i hi => by
      simp only [State.cachePrepare_rdXr, State.cachePrepare_rdXi, rdXr_redraw k hxr (List.mem_range.1 hi),
        rdXi_redraw k hxi (List.mem_range.1 hi)]
  have hlen : ((s.cachePrepare n).complexInput n).length = n := by simp [State.complexInput]
  rw [State.fftBody, State.fftBody, hin, transform_cachePrepare hs hn hlen, transform_cachePrepare (s := { s with draw := k }) hs hn hlen]
  exact (SameButNaN.cachePrepare k n s).storeTransform n _

theorem SameButNaN.fftrBody : SameButNaN (s.fftrBody n) (State.fftrBody n { s with draw := k }) := by
  have hin : (State.cachePrepare n { s with draw := k }).realInput n = (s.cachePrepare n).realInput n :=
    List.map_congr_left fun i hi => by
      simp only [State.cachePrepare_rdXr, rdXr_redraw k hxr (List.mem_range.1 hi)]
  have hlen : ((s.cachePrepare n).realInput n).length = n := by simp [State.realInput]
  rw [State.fftrBody, State.fftrBody, hin, transform_cachePrepare hs hn hlen, transform_cachePrepare (s := { s with draw := k }) hs hn hlen]
  exact (SameButNaN.cachePrepare k n s).storeTransform n _

/-- The magnitudes are those of the cells the transform has just written. -/
theorem SameButNaN.magBody : SameButNaN (s.magBody n) (State.magBody n { s with draw := k }) := by
  refine (SameButNaN.fftrBody k hs hn hxr).storeMagnitudes (fun i hi => ?_) (fun i hi => ?_)
  · obtain ⟨-, v, -, -, hv, -, -⟩ := (transformStored_fftrBody hn s).values i hi
    exact Option.ne_none_iff_exists'.2 ⟨v, hv⟩
  · obtain ⟨-, -, w, -, -, hw, -⟩ := (transformStored_fftrBody hn s).values i hi
    exact Option.ne_none_iff_exists'.2 ⟨w, hw⟩

end Transform

theorem winBody_xr_written (s : State) : s.winBody.xr.missing 0 Config.nMax = false :=
  Bool.eq_false_of_not_eq_true fun h => by
    obtain ⟨i, hi, hnone⟩ := Cells.missing_zero_iff.1 h
    rw [State.winBody_xr, Cells.look_fill, if_pos hi] at hnone
    cases hnone

/-- Each command of the frame after the first reads the cells the one before it has written (R223). -/
theorem SameButNaN.frameBody (hs : TablesMatch s) (hsmp : s.smp.missing 0 Config.nMax = false) :
    SameButNaN s.frameBody (State.frameBody { s with draw := k }) := by
  have hmatch : TablesMatch s.winBody := hs.of_sameCache (sameCache_of_win (exec_win_nMax s))
  have hmag := SameButNaN.magBody k hmatch (legalLen_iff_mem.1 legalLen_nMax) (winBody_xr_written s)
  rw [State.frameBody, State.frameBody, winBody_redraw k hsmp]
  refine hmag.scaleBody fun j _ hj => ?_
  rw [look_magBody_mag, if_pos (lt_trans hj (by decide : Config.height < Config.nMax))]
  exact Option.some_ne_none _

/-! #### Commands, writes, transactions -/

/-- A command that reads no cell without a value leaves the same state whatever the counter is, but for payloads. -/
theorem exec_redraw {i : Instr} (hs : TablesMatch s) (hw : cmdReadsUnwritten i s = false) (h : exec i s = .next t) :
    ∃ u, exec i { s with draw := k } = .next u ∧ SameButNaN t u := by
  cases i with
  | nop =>
    obtain rfl := execNop_next.1 h
    exact ⟨_, rfl, .redraw k t⟩
  | win len =>
    obtain ⟨hl, rfl⟩ | ⟨hl, rfl⟩ := execWin_next.1 h
    · rw [cmdReadsUnwritten, hl, Bool.true_and] at hw
      exact ⟨_, execWin_next.2 (.inl ⟨hl, (winBody_redraw k hw).symm⟩), .redraw k s.winBody⟩
    · exact ⟨_, execWin_next.2 (.inr ⟨hl, rfl⟩), .redraw k (s.latchFault _ _)⟩
  | fft nr ni =>
    obtain ⟨hl, rfl, rfl⟩ | ⟨hl, hne, rfl⟩ | ⟨hl, rfl⟩ := execFft_next.1 h
    · rw [cmdReadsUnwritten, hl, decide_eq_true rfl, Bool.true_and, Bool.true_and, Bool.or_eq_false_iff] at hw
      exact ⟨_, execFft_next.2 (.inl ⟨hl, rfl, rfl⟩), .fftBody k hs (legalLen_iff_mem.1 hl) hw.1 hw.2⟩
    · exact ⟨_, execFft_next.2 (.inr (.inl ⟨hl, hne, rfl⟩)), .redraw k (s.latchFault _ _)⟩
    · exact ⟨_, execFft_next.2 (.inr (.inr ⟨hl, rfl⟩)), .redraw k (s.latchFault _ _)⟩
  | fftr n =>
    obtain ⟨hl, rfl⟩ | ⟨hl, rfl⟩ := execFftr_next.1 h
    · rw [cmdReadsUnwritten, hl, Bool.true_and] at hw
      exact ⟨_, execFftr_next.2 (.inl ⟨hl, rfl⟩), .fftrBody k hs (legalLen_iff_mem.1 hl) hw⟩
    · exact ⟨_, execFftr_next.2 (.inr ⟨hl, rfl⟩), .redraw k (s.latchFault _ _)⟩
  | mag n =>
    obtain ⟨hl, rfl⟩ | ⟨hl, rfl⟩ := execMag_next.1 h
    · rw [cmdReadsUnwritten, hl, Bool.true_and] at hw
      exact ⟨_, execMag_next.2 (.inl ⟨hl, rfl⟩), .magBody k hs (legalLen_iff_mem.1 hl) hw⟩
    · exact ⟨_, execMag_next.2 (.inr ⟨hl, rfl⟩), .redraw k (s.latchFault _ _)⟩
  | scale m =>
    obtain ⟨hl, rfl⟩ | ⟨hl, rfl⟩ := execScale_next.1 h
    · rw [cmdReadsUnwritten, hl, Bool.true_and] at hw
      exact ⟨_, execScale_next.2 (.inl ⟨hl, rfl⟩),
        (SameButNaN.redraw k s).scaleBody fun j h1 hj => Cells.look_ne_none_of_not_missing hw h1 hj⟩
    · exact ⟨_, execScale_next.2 (.inr ⟨hl, rfl⟩), .redraw k (s.latchFault _ _)⟩
  | frame =>
    obtain rfl := execFrame_next.1 h
    exact ⟨_, rfl, .frameBody k hs hw⟩

theorem cmdWrite_redraw {d : Cell} {p : State × Resp} (hs : TablesMatch s) (hw : wordReadsUnwritten d s = false)
    (h : cmdWrite d s = .next p) : ∃ u, cmdWrite d { s with draw := k } = .next (u, p.2) ∧ SameButNaN p.1 u := by
  obtain ⟨he, rfl⟩ | ⟨he, hd, rfl⟩ | ⟨he, i, t, hd, ht, rfl⟩ := cmdWrite_next.1 h
  · exact ⟨_, cmdWrite_next.2 (.inl ⟨he, rfl⟩), .redraw k s⟩
  · exact ⟨_, cmdWrite_next.2 (.inr (.inl ⟨he, hd, rfl⟩)), .redraw k (s.latchFault _ _)⟩
  · rw [wordReadsUnwritten_of_decode he hd] at hw
    obtain ⟨u, hu, hsame⟩ := exec_redraw k hs hw ht
    exact ⟨u, cmdWrite_next.2 (.inr (.inr ⟨he, i, u, hd, hu, by rw [hsame.cmdResp_eq]⟩)), hsame⟩

/-- Of the writes only a command reads. -/
theorem writeCell_redraw {c : PortCell} {d : Cell} {p : State × Resp} (hs : TablesMatch s)
    (hw : (isCmd c && wordReadsUnwritten d s) = false) (h : writeCell d s c = .next p) :
    ∃ u, writeCell d { s with draw := k } c = .next (u, p.2) ∧ SameButNaN p.1 u := by
  cases c with
  | cmd => exact cmdWrite_redraw k hs hw h
  | mlen =>
    by_cases hd : d.toNat ≤ Config.nMax
    · obtain rfl := Host.Outcome.next.inj ((if_pos hd).symm.trans h)
      exact ⟨_, if_pos hd, .redraw k (s.setMlen d.toNat)⟩
    · obtain rfl := Host.Outcome.next.inj ((if_neg hd).symm.trans h)
      exact ⟨_, if_neg hd, .redraw k s⟩
  | ctrl =>
    obtain rfl := Host.Outcome.next.inj h
    refine ⟨_, rfl, ?_⟩
    cases d.getLsbD 0
    · exact .redraw k s
    · exact .redraw k s.softReset
  | smp _ | xr _ | xi _ | mag _ | pix _ | col _ | prom _ | wrom _ | status | twlen | id | errInfo | reserved =>
    obtain rfl := Host.Outcome.next.inj h
    exact ⟨_, rfl, .redraw k _⟩

theorem runTxn_redraw {x : Txn} (hs : TablesMatch s) (hw : txnReadsUnwritten x s = false) (h : runTxn x s = .next t) :
    ∃ u, runTxn x { s with draw := k } = .next u ∧ SameButNaN t u := by
  cases x with
  | read a =>
    obtain rfl := Host.Outcome.next.inj h
    have hread : hostRead a { s with draw := k } = hostRead a s := readCell_draw_of_written hw k
    refine ⟨_, runTxn_read a, ?_⟩
    rw [hread]
    exact (SameButNaN.redraw k s).complete _
  | write a d =>
    obtain ⟨p, hp, rfl⟩ := runTxn_write_next.1 h
    obtain ⟨u, hu, hsame⟩ := writeCell_redraw k hs hw hp
    exact ⟨_, runTxn_write_next.2 ⟨_, hu, rfl⟩, hsame.complete _⟩
  | reset =>
    obtain rfl := Host.Outcome.next.inj h
    exact ⟨_, runTxn_reset, (SameButNaN.redraw k s.hardReset).complete none⟩

/-- No check of the strict step looks at the counter. -/
theorem txnReadsUnwritten_redraw (x : Txn) (s : State) : txnReadsUnwritten x { s with draw := k } = txnReadsUnwritten x s := by
  cases x <;> rfl

theorem txnReadsUnwritten_setPort (x : Txn) (p : List Txn) (s : State) : txnReadsUnwritten x (s.setPort p) = txnReadsUnwritten x s := by
  cases x <;> rfl

/-- What a strict step has found out of the transaction it runs. -/
theorem not_refused_of_strictStep {x : Txn} {rest : List Txn} (hp : s.port = x :: rest) (h : strictStep s = .next t) :
    hostErrorTxn x = false ∧ txnReadsUnwritten x s = false := by
  rw [strictStep_of_port_cons hp] at h
  split_ifs at h with he hu
  exact ⟨Bool.eq_false_of_not_eq_true he, Bool.eq_false_of_not_eq_true hu⟩

/-- Settles O52: the strict step runs its transaction only if each cell it reads holds a value, and then the counter is seen in the
payloads of computed NaNs alone, transaction by transaction. -/
theorem strictStepUsesNoFreeValueButNaNPayloads : Obligations.StrictStepUsesNoFreeValueButNaNPayloads := by
  intro s t k hs h
  obtain ⟨hp, rfl⟩ | ⟨x, rest, hp, hrun⟩ := step_next.1 (strictStep_next h)
  · exact ⟨_, (strictStep_of_port_nil (s := { t with draw := k }) hp).trans (step_of_port_nil hp), .redraw k t⟩
  · obtain ⟨he, hw⟩ := not_refused_of_strictStep hp h
    obtain ⟨u, hu, hsame⟩ := runTxn_redraw (s := s.setPort rest) k hs.tables ((txnReadsUnwritten_setPort x rest s).trans hw) hrun
    have hstrict : strictStep { s with draw := k } = step { s with draw := k } :=
      strictStep_eq_step hp he ((txnReadsUnwritten_redraw k x s).trans hw)
    exact ⟨u, hstrict.trans ((step_of_port_cons (s := { s with draw := k }) hp).trans hu), hsame⟩

end Sys2Proof.Machine
end
